-- ==== Sys2Proof/Word.lean ====
section
/-! DEFINITION. The word types of HUFFCORE (00_scope.md R5, R6). -/

namespace Sys2Proof

/-- A byte, a Symbol: SYMW = 8 bits (R5). -/
abbrev Byte := BitVec 8

/-- A command word CW: CWW = 32 bits (R5, R90). -/
abbrev Word := BitVec 32

/-- WDATA, RDATA, counts and weights: DW = CNTW = 64 bits (R5). -/
abbrev Data := BitVec 64

/-- A node index: IDXW = 9 bits (R5, R30). -/
abbrev NodeIdx := BitVec 9

/-- The index operand IDX of a command word: 16 bits (R90). -/
abbrev Idx := BitVec 16

end Sys2Proof
end

