-- ==== Sys2Proof/Syntax.lean ====
section
/-! DEFINITION. The thirteen commands of HUFFCORE, one constructor per row of spec/opcode_table.json (30_encoding.md R94).
Operands are the unsigned fields of the command word, and WDATA where it is an operand, as they stand (R90, R91, R95). -/

namespace Sys2Proof

/-- A command. Index operands keep all 16 bits of IDX, because an index out of range is a legal word that is rejected
later (R96 step 4); SEL operands keep all 8 bits, and `Instr.wf` says which values are legal words (R98). -/
inductive Instr
  /-- CLR: start a new operation (R245). -/
  | clr
  /-- PROF: profile the input stream (R120). -/
  | prof
  /-- LDF sym, count: load one frequency; IDX = sym, WDATA = count (R121). -/
  | ldf (sym : Idx) (count : Data)
  /-- BUILD: build the tree from FREQ (R140). -/
  | build
  /-- GEN: generate the code book (R160). -/
  | gen
  /-- TSER: serialize the tree (R176). -/
  | tser
  /-- TDES shape: deserialize a tree; IDX[1:0] = shape (R177). -/
  | tdes (shape : BitVec 2)
  /-- ENC: encode the input stream (R201). -/
  | enc
  /-- DEC expected: decode a payload; WDATA = expected (R204). -/
  | dec (expected : Data)
  /-- RDR reg: read a register; IDX = reg (R246). -/
  | rdr (reg : Idx)
  /-- RDF sym: read a frequency; IDX = sym (R247). -/
  | rdf (sym : Idx)
  /-- RDN sel, idx: read a node; SEL = 0 descriptor, 1 weight (R248). -/
  | rdn (sel : Byte) (idx : Idx)
  /-- RDC sel, sym: read a code; SEL = 0 length, 1 to 4 word 0 to 3 of the code vector (R249). -/
  | rdc (sel : Byte) (sym : Idx)
  deriving DecidableEq, Repr

/-- The operation a command word selects: the mnemonics of R94. -/
inductive Op
  | clr | prof | ldf | build | gen | tser | tdes | enc | dec | rdr | rdf | rdn | rdc
  deriving DecidableEq, Repr

/-- The operation of a command. -/
def Instr.op : Instr → Op
  | .clr => .clr
  | .prof => .prof
  | .ldf _ _ => .ldf
  | .build => .build
  | .gen => .gen
  | .tser => .tser
  | .tdes _ => .tdes
  | .enc => .enc
  | .dec _ => .dec
  | .rdr _ => .rdr
  | .rdf _ => .rdf
  | .rdn _ _ => .rdn
  | .rdc _ _ => .rdc

end Sys2Proof
end

