-- ==== Sys2Proof/WellFormed.lean ====
section
/-! DEFINITION. Which terms of `Instr` are legal commands (30_encoding.md R96 step 1, R98). -/

namespace Sys2Proof

/-- A legal command: TDES with shape 0, 1 or 2; RDN with SEL below 2; RDC with SEL below 5; every other command as it
stands (R98). -/
def Instr.wf : Instr → Bool
  | .clr => true
  | .prof => true
  | .ldf _ _ => true
  | .build => true
  | .gen => true
  | .tser => true
  | .tdes shape => shape != 3#2
  | .enc => true
  | .dec _ => true
  | .rdr _ => true
  | .rdf _ => true
  | .rdn sel _ => decide (sel.toNat < 2)
  | .rdc sel _ => decide (sel.toNat < 5)

end Sys2Proof
end

