-- ==== Sys2Proof/Decode.lean ====
section
/-! DEFINITION. The command encoding (30_encoding.md R90 to R98): the opcode map as rows of match and mask, the decoder,
total on every pair (CW, WDATA), and after it the encoder. -/

namespace Sys2Proof

/-- Why a command word is refused: each is REJ_ILLEGAL at the command channel (R96 step 1, R98). -/
inductive DecodeError
  /-- CW matches no row of R94. -/
  | noRow
  /-- CW matches TDES with IDX[1:0] = 3. -/
  | tdesShape
  /-- CW matches RDC with SEL in 5..7. -/
  | rdcSel
  deriving DecidableEq, Repr

/-- One row of the opcode map: w selects the row when (w AND mask) = pattern (R94). -/
structure Row where
  op : Op
  pattern : Word
  mask : Word
  deriving DecidableEq, Repr

/-- The opcode map (R94; spec/opcode_table.json). -/
def opcodeMap : List Row :=
  [⟨.clr, 0x01000000#32, 0xFFFFFFFF#32⟩, ⟨.prof, 0x10000000#32, 0xFFFFFFFF#32⟩, ⟨.ldf, 0x11000000#32, 0xFFFF0000#32⟩,
   ⟨.build, 0x20000000#32, 0xFFFFFFFF#32⟩, ⟨.gen, 0x30000000#32, 0xFFFFFFFF#32⟩, ⟨.tser, 0x40000000#32, 0xFFFFFFFF#32⟩,
   ⟨.tdes, 0x41000000#32, 0xFFFFFFFC#32⟩, ⟨.enc, 0x50000000#32, 0xFFFFFFFF#32⟩, ⟨.dec, 0x51000000#32, 0xFFFFFFFF#32⟩,
   ⟨.rdr, 0x60000000#32, 0xFFFF0000#32⟩, ⟨.rdf, 0x61000000#32, 0xFFFF0000#32⟩, ⟨.rdn, 0x62000000#32, 0xFFFE0000#32⟩,
   ⟨.rdc, 0x63000000#32, 0xFFF80000#32⟩]

/-- Does the word select the row (R94)? -/
def Row.selects (r : Row) (cw : Word) : Bool := (cw &&& r.mask) == r.pattern

/-- SEL, bits 23:16 of CW (R90). -/
def selOf (cw : Word) : Byte := cw.extractLsb' 16 8

/-- IDX, bits 15:0 of CW (R90). -/
def idxOf (cw : Word) : Idx := cw.extractLsb' 0 16

/-- The shape operand of TDES, IDX[1:0] (R95). -/
def shapeOf (cw : Word) : BitVec 2 := cw.extractLsb' 0 2

/-- The command a word of a given row stands for, or the reason it is illegal (R95, R96 step 1). -/
def assembleOperands (op : Op) (cw : Word) (wdata : Data) : Except DecodeError Instr :=
  match op with
  | .clr => .ok .clr
  | .prof => .ok .prof
  | .ldf => .ok (.ldf (idxOf cw) wdata)
  | .build => .ok .build
  | .gen => .ok .gen
  | .tser => .ok .tser
  | .tdes => if shapeOf cw = 3#2 then .error .tdesShape else .ok (.tdes (shapeOf cw))
  | .enc => .ok .enc
  | .dec => .ok (.dec wdata)
  | .rdr => .ok (.rdr (idxOf cw))
  | .rdf => .ok (.rdf (idxOf cw))
  | .rdn => .ok (.rdn (selOf cw) (idxOf cw))
  | .rdc => if 5 ≤ (selOf cw).toNat then .error .rdcSel else .ok (.rdc (selOf cw) (idxOf cw))

/-- Step 1 of R96: the command that (CW, WDATA) stands for, or why CW is illegal. -/
def decode (cw : Word) (wdata : Data) : Except DecodeError Instr :=
  match opcodeMap.find? (fun r => r.selects cw) with
  | none => .error .noRow
  | some r => assembleOperands r.op cw wdata

/-- OPC, the opcode of a command (R94). -/
def Instr.opcode : Instr → Byte
  | .clr => 0x01#8
  | .prof => 0x10#8
  | .ldf _ _ => 0x11#8
  | .build => 0x20#8
  | .gen => 0x30#8
  | .tser => 0x40#8
  | .tdes _ => 0x41#8
  | .enc => 0x50#8
  | .dec _ => 0x51#8
  | .rdr _ => 0x60#8
  | .rdf _ => 0x61#8
  | .rdn _ _ => 0x62#8
  | .rdc _ _ => 0x63#8

/-- SEL of a command: 0 unless the row says otherwise (R90, R94). -/
def Instr.sel : Instr → Byte
  | .rdn sel _ => sel
  | .rdc sel _ => sel
  | .clr | .prof | .ldf _ _ | .build | .gen | .tser | .tdes _ | .enc | .dec _ | .rdr _ | .rdf _ => 0#8

/-- IDX of a command: 0 where it is not an operand (R91, R94). -/
def Instr.idx : Instr → Idx
  | .ldf sym _ => sym
  | .tdes shape => shape.setWidth 16
  | .rdr reg => reg
  | .rdf sym => sym
  | .rdn _ idx => idx
  | .rdc _ sym => sym
  | .clr | .prof | .build | .gen | .tser | .enc | .dec _ => 0#16

/-- WDATA of a command: ignored, here 0, where it is not an operand (R91). -/
def Instr.wdata : Instr → Data
  | .ldf _ count => count
  | .dec expected => expected
  | .clr | .prof | .build | .gen | .tser | .tdes _ | .enc | .rdr _ | .rdf _ | .rdn _ _ | .rdc _ _ => 0#64

/-- The command word of a command: OPC, SEL and IDX side by side (R90). -/
def Instr.word (i : Instr) : Word := i.opcode ++ i.sel ++ i.idx

/-- The pair (CW, WDATA) of a command (R90, R101). -/
def encode (i : Instr) : Word × Data := (i.word, i.wdata)

/-- CW and WDATA of an instruction given as one number of `nbits` bits: CW is bits 31:0, WDATA bits 95:32, and every bit at
or above `nbits` is 0 (DESIGN CHOICE, log entry 18: the interface gives no byte layout, R64). -/
def commandOf (nbits w : Nat) : Word × Data :=
  (BitVec.ofNat 32 (w % 2 ^ nbits), BitVec.ofNat 64 (w % 2 ^ nbits / 2 ^ 32))

/-- The instruction this decoder reads from an instruction whose bits are `w`, numbered as spec/opcode_table.json numbers
them. -/
def decodeTableWord (nbits w : Nat) : Option Instr :=
  match decode (commandOf nbits w).1 (commandOf nbits w).2 with
  | .ok i => some i
  | .error _ => none

end Sys2Proof
end

