-- ==== Sys2Proof/Config.lean ====
section
/-! DEFINITION. The implementation parameters the rules read (00_scope.md R5) and the free values of what the spec
leaves open. The OPEN parameters CHUNK, P_LANES, MAGIC, NAME_LEN_ORDER and META_PLACEMENT are read by no rule of HUFFCORE
(R123, R124, R231) and are not here. -/

namespace Sys2Proof.Config

/-- NODECAP: entries of the NODE table (R5, R147). -/
abbrev nodeCap : Nat := 511

/-- NIL: the node index that means "no child" or "no root" (R5). -/
abbrev nil : NodeIdx := 511#9

/-- MAXLEN = MAXDEPTH: the longest code and the deepest leaf (R5, R163). -/
abbrev maxDepth : Nat := 255

/-- What PATH holds after a GEN that walked a tree: "any value" (R37; 93_implementation_defined.md U8), one value for each draw.
DESIGN CHOICE (log entry 8): a free value, about which nothing can be proved. -/
opaque scratchPath : Nat → BitVec 255

/-- What DEPTH holds after a GEN that walked a tree: "any value" (R37, U8). DESIGN CHOICE (log entry 8): a free value. -/
opaque scratchDepth : Nat → BitVec 8

end Sys2Proof.Config
end

