-- ==== Sys2Proof/Machine/State.lean ====
section
/-! DEFINITION. The state of one HUFFCORE instance with its streams (10_state.md R20), as plain data, the ways a step can
stop, and the state after reset (R51). -/

namespace Sys2Proof.Machine

/-- A NODE entry: the document's tagged variant (R30). A Leaf has no children (they read NIL) and an Internal node no symbol
(it reads 0). A child index NIL means the child is absent. -/
inductive Node
  | leaf (sym : Byte) (w : Data)
  | internal (w : Data) (left right : NodeIdx)
  deriving DecidableEq, Repr

/-- A CODE entry: the length (0 = no code) and the code, first bit in bit 255 (R32). -/
structure Code where
  len : BitVec 8
  bits : BitVec 256
  deriving DecidableEq, Repr

/-- An item of the input stream (R67). -/
inductive Item
  | byte (b : Byte)
  | eos
  | fail
  deriving DecidableEq, Repr

/-- The sink's answer to one OutPush (R68). -/
inductive SinkAnswer
  | ok
  | fail
  deriving DecidableEq, Repr

/-- A response on the command channel (R92). -/
structure Response where
  resp : BitVec 4
  rdata : Data
  deriving DecidableEq, Repr

/-- A move of the host, or of the scheduler (R10, R300). -/
inductive Move
  /-- The host issues a command word with its WDATA (R10 a). -/
  | issue (cw : Word) (wdata : Data)
  /-- The core gets one micro-step, if one is enabled (R10 b). -/
  | core
  /-- The host pushes an item onto the tail of INQ (R10 c). -/
  | push (it : Item)
  /-- The host removes a byte from the head of OUTQ (R10 d). -/
  | take
  /-- The sink will answer one more OutPush (R9, R68). -/
  | answer (a : SinkAnswer)
  /-- Hardware reset (R300, U21). -/
  | reset
  deriving DecidableEq, Repr

/-- What TSER has still to write: the subtree at a node, or a symbol byte whose tag is out already (R176). -/
inductive SerWork
  | node (i : NodeIdx)
  | sym (b : Byte)
  deriving DecidableEq, Repr

/-- A call of Des() that TDES has not returned from (R177): the Internal node whose left or right child is being read, or the
lone child of a shape-1 root. An empty stack means the root itself is being read. -/
inductive DesFrame
  | left (i : NodeIdx)
  | right (i : NodeIdx)
  | lone
  deriving DecidableEq, Repr

/-- The stream access a running command comes to next (R10): between two micro-steps the core stands here. -/
inductive Phase
  /-- No command is running: BUSY = 0. -/
  | idle
  /-- PROF at its InPop (R120). -/
  | profPop
  /-- TSER at an OutPush, with what it has still to write, next first (R176). -/
  | serPush (todo : List SerWork)
  /-- TDES 1 at the GetByte of the root's tag (R177). -/
  | desRoot
  /-- TDES at the GetByte of a node's tag (R177). -/
  | desTag (stack : List DesFrame)
  /-- TDES at the GetByte of a Leaf's symbol (R177). -/
  | desSym (stack : List DesFrame)
  /-- ENC at its InPop (R201). -/
  | encPop
  /-- ENC at the OutPush of PutBit: the bit that fills the group of eight, and the bits of the current code still to put after
  it (R202). The seven bits before it are in ACC (R35; log entry 10). -/
  | encPush (v : Bool) (rest : List Bool)
  /-- ENC at the OutPush of Flush (R203). -/
  | encFlush
  /-- DEC at the InPop of NextBit (R205). -/
  | decPop
  /-- DEC at the OutPush of a decoded symbol (R204). -/
  | decPush (sym : Byte)
  deriving DecidableEq, Repr

/-- The state of one HUFFCORE instance and of its streams (R20). -/
structure State where
  /-- FV: the frequency table is valid (R21). -/
  fv : Bool
  /-- TV: the tree is valid (R21). -/
  tv : Bool
  /-- BV: the code book is valid (R21). -/
  bv : Bool
  /-- FIN: the operation is over (R21). -/
  fin : Bool
  /-- ERR: an error is latched (R21, R25). -/
  err : Bool
  /-- SHAPE of the tree: 0 none, 1 right-absent root, 2 full (R21, R24). -/
  shape : BitVec 2
  /-- ERRCODE: the kind of the latched error (R21, R266). -/
  errcode : BitVec 4
  /-- ERRSUB: its sub-cause (R21, R266). -/
  errsub : BitVec 4
  /-- CUROP: the opcode of the last accepted command that is no read (R21). -/
  curop : Byte
  /-- TOTAL (R26, R27). -/
  total : Data
  /-- EXPECTED (R26). -/
  expected : Data
  /-- DECODED (R26). -/
  decoded : Data
  /-- INCNT (R28). -/
  incnt : Data
  /-- OUTCNT (R28). -/
  outcnt : Data
  /-- ROOT, or NIL (R26). -/
  root : NodeIdx
  /-- NSYM (R26). -/
  nsym : BitVec 9
  /-- FREQ[0..255] (R29). -/
  freq : Vector Data 256
  /-- The defined NODE entries 0 to NNODES - 1 (R30). NNODES is this list's length. -/
  nodes : List Node
  /-- CODE[0..255] (R32). -/
  code : Vector Code 256
  /-- PQ (R34). -/
  pq : List NodeIdx
  /-- ACC (R35). -/
  acc : BitVec 8
  /-- NACC: how many code bits ACC holds, 0 to 7 (R35). -/
  nacc : BitVec 3
  /-- DBYTE (R36). -/
  dbyte : BitVec 8
  /-- DBITS: how many bits of DBYTE are not yet taken (R36). -/
  dbits : BitVec 4
  /-- CUR: the decoder's walk pointer (R36). -/
  cur : NodeIdx
  /-- PATH (R37). -/
  path : BitVec 255
  /-- DEPTH (R37). -/
  depth : BitVec 8
  /-- Where the running command stands (R10, R22). -/
  phase : Phase
  /-- INQ, head first (R38). -/
  inq : List Item
  /-- OUTQ, head first (R38). -/
  outq : List Byte
  /-- The responses given on the command channel, oldest first (R92). -/
  rsps : List Response
  /-- The host's moves still to come, next first (R10). -/
  moves : List Move
  /-- The sink's answers to the next OutPushes (R68). -/
  sinkAnswers : List SinkAnswer
  /-- What the sink answers after those; none = it does not answer (R68, R74). -/
  sinkThen : Option SinkAnswer
  /-- How many micro-steps the core takes in the move that accepts a streaming command (R10 leaves the order of moves open). -/
  pace : Nat
  /-- The model's own counter of free values drawn. -/
  draws : Nat
  deriving DecidableEq, Repr

/-- Why the model stops. Both are raised only in states that break R31, which no command sequence produces. -/
inductive Fault
  /-- GEN, TSER or DEC was led to a NODE index that names no defined entry (R30: "no command reads them"). Safe. -/
  | undefinedNode
  /-- GEN was led along a path of more than 255 bits (R163: "PATH never overflows"). Safe. -/
  | pathOverflow
  deriving DecidableEq, Repr

/-- Why the model refuses. -/
inductive Refusal
  /-- The instruction has no meaning in the model yet; raised by `exec`'s arm only. Safe. -/
  | notModelled (mnemonic : String)
  deriving DecidableEq, Repr

/-- What a step answers. -/
abbrev Result := Host.Outcome State Fault Refusal

/-- The state after hardware reset (R51): every flag and register 0, ROOT and CUR NIL, no NODE entry defined, every table zero.
R51 gives no value for PATH and DEPTH ("don't-care": DESIGN CHOICE 0, log entry 8) and does not touch the streams and the rest
of the environment (DESIGN CHOICE: empty streams, no move to come, a sink that always says ok, pace 1048576; log entries 1, 3,
4, 5 and 14). -/
def State.reset : State where
  fv := false
  tv := false
  bv := false
  fin := false
  err := false
  shape := 0
  errcode := 0
  errsub := 0
  curop := 0
  total := 0
  expected := 0
  decoded := 0
  incnt := 0
  outcnt := 0
  root := Config.nil
  nsym := 0
  freq := Vector.replicate 256 0
  nodes := []
  code := Vector.replicate 256 ⟨0, 0⟩
  pq := []
  acc := 0
  nacc := 0
  dbyte := 0
  dbits := 0
  cur := Config.nil
  path := 0
  depth := 0
  phase := .idle
  inq := []
  outq := []
  rsps := []
  moves := []
  sinkAnswers := []
  sinkThen := some .ok
  pace := 1048576
  draws := 0

end Sys2Proof.Machine
end

