-- ==== Sys2Proof/Machine/Flags.lean ====
section
/-! DEFINITION. The flags: the STATUS word and its views (10_state.md R21, R22), the sequence conditions (30_encoding.md R97),
the response codes (R93) and the error codes (60_exceptions.md R266). -/

namespace Sys2Proof.Machine

/-- BUSY: a streaming command is between accept and completion (R21, R22). -/
def State.busy (s : State) : Bool := s.phase != .idle

/-- STATUS, register 0, assembled from its fields; bits 63:24 read as zero (R21). -/
def State.status (s : State) : Data :=
  0#40 ++ s.curop ++ s.errsub ++ s.errcode ++ s.shape ++ BitVec.ofBool s.err ++ BitVec.ofBool s.fin
    ++ BitVec.ofBool s.bv ++ BitVec.ofBool s.tv ++ BitVec.ofBool s.fv ++ BitVec.ofBool s.busy

/-- RESP OK (R93). -/
def respOk : BitVec 4 := 0
/-- RESP ERR (R93). -/
def respErr : BitVec 4 := 1
/-- RESP REJ_ILLEGAL (R93). -/
def rejIllegal : BitVec 4 := 8
/-- RESP REJ_SEQ (R93). -/
def rejSeq : BitVec 4 := 9
/-- RESP REJ_RANGE (R93). -/
def rejRange : BitVec 4 := 10
/-- RESP REJ_BUSY (R93). -/
def rejBusy : BitVec 4 := 11

/-- The causes of the errors of R266. -/
inductive Err
  /-- A FAIL item was popped. -/
  | ioSource
  /-- The sink answered fail. -/
  | ioSink
  /-- A tag byte is neither 0 nor 1. -/
  | badTag
  /-- EOS before the tree was complete. -/
  | truncatedTree
  /-- The stream describes more than 511 nodes. -/
  | tableFull
  /-- Shape 1 was given and the first byte is not 0x01. -/
  | rootNotInternal
  /-- A bit walk reached a node with no child on the indicated side. -/
  | noChild
  /-- EOS popped when a bit was needed. -/
  | payloadExhausted
  /-- A symbol is expected but there is no tree. -/
  | noTree
  /-- An input byte has no code. -/
  | noCode
  /-- A 2^64-th byte would make TOTAL exceed 64 bits. -/
  | overflow
  deriving DecidableEq, Repr

/-- ERRCODE of a cause (R266). -/
def Err.code : Err → BitVec 4
  | .ioSource | .ioSink => 1
  | .badTag | .truncatedTree | .tableFull | .rootNotInternal => 2
  | .noChild | .payloadExhausted | .noTree => 3
  | .noCode => 4
  | .overflow => 5

/-- ERRSUB of a cause (R266). -/
def Err.sub : Err → BitVec 4
  | .ioSource => 1
  | .ioSink => 2
  | .badTag => 1
  | .truncatedTree => 2
  | .tableFull => 3
  | .rootNotInternal => 4
  | .noChild => 1
  | .payloadExhausted => 2
  | .noTree => 3
  | .noCode => 0
  | .overflow => 0

/-- The sequence condition of each command (R97). -/
def seqOk (i : Instr) (s : State) : Bool :=
  match i with
  | .clr => true
  | .prof => !s.err && !s.fv && !s.tv
  | .ldf _ _ => !s.err && !s.tv
  | .build => !s.err && s.fv && !s.tv
  | .gen => !s.err && s.tv && !s.bv
  | .tser => !s.err && s.tv
  | .tdes _ => !s.err && !s.fv && !s.tv
  | .enc => !s.err && s.bv && !s.fin
  | .dec _ => !s.err && s.tv && !s.fin
  | .rdr _ => true
  | .rdf _ => true
  | .rdn _ _ => true
  | .rdc _ _ => true

/-- The four read commands, which leave CUROP alone (R21, R96 step 5). -/
def isRead (i : Instr) : Bool :=
  match i with
  | .rdr _ | .rdf _ | .rdn _ _ | .rdc _ _ => true
  | .clr | .prof | .ldf _ _ | .build | .gen | .tser | .tdes _ | .enc | .dec _ => false

/-- The streaming commands: those that call InPop or OutPush (R22). -/
def isStreaming (i : Instr) : Bool :=
  match i with
  | .prof | .tser | .tdes _ | .enc | .dec _ => true
  | .clr | .ldf _ _ | .build | .gen | .rdr _ | .rdf _ | .rdn _ _ | .rdc _ _ => false

/-- The commands that may overlap a running one: RDR of STATUS, DECODED, INCNT or OUTCNT (R22, R96 step 2). -/
def mayOverlap (i : Instr) : Bool :=
  match i with
  | .rdr reg => reg == 0 || reg == 3 || reg == 4 || reg == 5
  | .clr | .prof | .ldf _ _ | .build | .gen | .tser | .tdes _ | .enc | .dec _ | .rdf _ | .rdn _ _ | .rdc _ _ => false

end Sys2Proof.Machine
end

