-- ==== Sys2Proof/Machine/Operands.lean ====
section
/-! DEFINITION. The operands: table indices and their ranges (20_memory.md R60, 30_encoding.md R95, R96 step 4), the registers
RDR reads (10_state.md R26), the read-back layouts of a node (47_system.md R248) and of a code (20_memory.md R65). -/

namespace Sys2Proof.Machine

/-- The symbol an index operand in range stands for (R95). -/
def symbolOf (idx : Idx) : Byte := idx.setWidth 8

/-- A table entry, by Symbol (R60). -/
def entry {α : Type} (t : Vector α 256) (b : Byte) : α := t[b.toNat]'b.isLt

/-- The table with one entry replaced. -/
def setEntry {α : Type} (t : Vector α 256) (b : Byte) (x : α) : Vector α 256 := t.set b.toNat x b.isLt

/-- NNODES: how many NODE entries are in use, that is defined (R26, R30). -/
def State.nnodes (s : State) : Nat := s.nodes.length

/-- TOTAL - FREQ[sym] + WDATA on unbounded naturals (R96 step 4, R121). Where FREQ[sym] exceeds TOTAL, which R27 rules out,
the difference is 0 (log entry 11). -/
def ldfTotal (sym : Byte) (count : Data) (s : State) : Nat :=
  s.total.toNat - (entry s.freq sym).toNat + count.toNat

/-- Step 4 of R96: are the operands in range? -/
def rangeOk (i : Instr) (s : State) : Bool :=
  match i with
  | .ldf sym count => decide (sym.toNat ≤ 255) && decide (ldfTotal (symbolOf sym) count s < 2 ^ 64)
  | .rdf sym => decide (sym.toNat ≤ 255)
  | .rdc _ sym => decide (sym.toNat ≤ 255)
  | .rdr reg => decide (reg.toNat ≤ 8)
  | .rdn _ idx => decide (idx.toNat < s.nnodes)
  | .clr | .prof | .build | .gen | .tser | .tdes _ | .enc | .dec _ => true

/-- Register number `reg`, zero-extended to 64 bits (R26, R246). Numbers 9 and above do not exist and are rejected before
this is read. -/
def State.register (s : State) (reg : Idx) : Data :=
  match reg.toNat with
  | 0 => s.status
  | 1 => s.total
  | 2 => s.expected
  | 3 => s.decoded
  | 4 => s.incnt
  | 5 => s.outcnt
  | 6 => s.root.setWidth 64
  | 7 => BitVec.ofNat 64 s.nnodes
  | 8 => s.nsym.setWidth 64
  | _ => 0

/-- The NODE entry of an index, where one is defined (R30). -/
def nodeAt (nodes : List Node) (i : NodeIdx) : Option Node := nodes[i.toNat]?

/-- The field kind: 0 Leaf, 1 Internal (R30). -/
def Node.kind : Node → BitVec 1
  | .leaf _ _ => 0
  | .internal _ _ _ => 1

/-- The field sym: the Leaf's symbol, 0 in an Internal node (R30). -/
def Node.sym : Node → Byte
  | .leaf sym _ => sym
  | .internal _ _ _ => 0

/-- The field w (R30). -/
def Node.w : Node → Data
  | .leaf _ w => w
  | .internal w _ _ => w

/-- The field left: NIL in a Leaf (R30). -/
def Node.left : Node → NodeIdx
  | .leaf _ _ => Config.nil
  | .internal _ l _ => l

/-- The field right: NIL in a Leaf or when absent (R30). -/
def Node.right : Node → NodeIdx
  | .leaf _ _ => Config.nil
  | .internal _ _ r => r

/-- The descriptor RDN 0 reads: kind in bit 0, sym in 15:8, left in 24:16, right in 40:32, all other bits 0 (R248). -/
def Node.descriptor (n : Node) : Data :=
  0#23 ++ n.right ++ 0#7 ++ n.left ++ n.sym ++ 0#7 ++ n.kind

/-- The node with its left child set (R177: NODE[i].left <- ...). -/
def Node.withLeft (l : NodeIdx) : Node → Node
  | .leaf sym w => .leaf sym w
  | .internal w _ r => .internal w l r

/-- The node with its right child set (R177: NODE[i].right <- ...). -/
def Node.withRight (r : NodeIdx) : Node → Node
  | .leaf sym w => .leaf sym w
  | .internal w l _ => .internal w l r

/-- A bit sequence left-justified in 256 bits: bit k of the sequence is bit 255 - k, the rest is 0 (R32). -/
def leftJustified : List Bool → BitVec 256
  | [] => 0
  | b :: bs => (if b then 1#256 <<< 255 else 0) ||| (leftJustified bs >>> 1)

/-- The CODE entry of a bit sequence (R32). -/
def Code.ofPath (q : List Bool) : Code := ⟨BitVec.ofNat 8 q.length, leftJustified q⟩

/-- CODE[s].bit[0 .. len-1], first bit first (R7, R32). -/
def Code.path (c : Code) : List Bool := (List.range c.len.toNat).map c.bits.getMsbD

/-- Word k of the code vector: bits 255-64k down to 192-64k (R65, R249). -/
def Code.word (c : Code) (k : Nat) : Data := c.bits.extractLsb' (192 - 64 * k) 64

/-- What RDC reads: SEL 0 the length, SEL 1 to 4 word SEL - 1 (R249). -/
def Code.selected (c : Code) (sel : Byte) : Data :=
  match sel.toNat with
  | 0 => c.len.setWidth 64
  | k + 1 => c.word k

/-- What RDN reads: SEL 1 the weight, else the descriptor (R248). -/
def Node.selected (n : Node) (sel : Byte) : Data :=
  if sel = 1 then n.w else n.descriptor

end Sys2Proof.Machine
end

