-- ==== Sys2Proof/Machine/Ops.lean ====
section
/-! DEFINITION. The shared operations: responses and rejection (30_encoding.md R92, R93), the checks at issue and the accept
(R96), completion, taking an error and leaving it (60_exceptions.md R275, R276), and the stream accesses InPop and OutPush
(20_memory.md R67, R68). -/

namespace Sys2Proof.Machine

/-- Answer a command on the command channel (R92). -/
def State.respond (s : State) (resp : BitVec 4) (rdata : Data) : State :=
  { s with rsps := s.rsps ++ [⟨resp, rdata⟩] }

/-- `reject(r)`: no state changes, RESP = r, RDATA = 0 (R8, R92, R93, R273). -/
def reject (resp : BitVec 4) (s : State) : Result := .next (s.respond resp 0)

/-- `complete OK(v)` of a command that runs as one atomic move (R8, R10). BUSY is not touched: it is 0 already, or the command
is a read that overlaps a running one, whose BUSY stays 1 (R246; log entry 13). -/
def complete (rdata : Data) (s : State) : Result := .next (s.respond respOk rdata)

/-- `complete OK` of a streaming command: BUSY <- 0, RESP = 0, RDATA = 0 (R8, R22). -/
def State.finish (s : State) : State := ({ s with phase := .idle } : State).respond respOk 0

/-- `raise Err(code, sub)`, taking an error: ERR, ERRCODE, ERRSUB latched, BUSY <- 0, RESP = 1, RDATA = 0, and nothing else
changed (R275). -/
def State.raise (s : State) (e : Err) : State :=
  ({ s with err := true, errcode := e.code, errsub := e.sub, phase := .idle } : State).respond respErr 0

/-- Every register, flag, table and hidden item at its reset value; the streams and the rest of the environment untouched
(R51, R245, R300). It is the only return from an error (R276). `draws`, the model's own, is kept. -/
def State.cleared (s : State) : State :=
  { State.reset with
    inq := s.inq, outq := s.outq, rsps := s.rsps, moves := s.moves, sinkAnswers := s.sinkAnswers, sinkThen := s.sinkThen,
    pace := s.pace, draws := s.draws }

/-- The checks at issue (R96 steps 1 to 4), in that order: the RESP of the first that fails. -/
def checks (i : Instr) (s : State) : Option (BitVec 4) :=
  if !i.wf then some rejIllegal
  else if s.busy && !mayOverlap i then some rejBusy
  else if !seqOk i s then some rejSeq
  else if !rangeOk i s then some rejRange
  else none

/-- Accept (R96 step 5): CUROP <- OPC unless the command is a read; a streaming command zeroes INCNT and OUTCNT. (BUSY <- 1
is the phase the command's rule then puts.) -/
def State.accept (s : State) (i : Instr) : State :=
  { s with
    curop := if isRead i then s.curop else i.opcode
    incnt := if isStreaming i then 0 else s.incnt
    outcnt := if isStreaming i then 0 else s.outcnt }

/-- Issue a command: the checks, then either the rejection or the accept and the command's rule (R96). -/
def issued (i : Instr) (s : State) (rule : State → Result) : Result :=
  match checks i s with
  | some resp => reject resp s
  | none => rule (s.accept i)

/-- Go on from a next state; a fault or a refusal stays. -/
def andThen (r : Result) (k : State → Result) : Result :=
  match r with
  | .next s => k s
  | .fault f => .fault f
  | .refused f => .refused f

/-- The state after the head item of INQ is taken: INCNT counts data bytes only, modulo 2^64 (R28, R67). -/
def State.popped (s : State) (it : Item) (rest : List Item) : State :=
  { s with inq := rest, incnt := match it with | .byte _ => s.incnt + 1 | .eos => s.incnt | .fail => s.incnt }

/-- InPop(): take the item at the head of INQ and go on with it; on an empty INQ the core waits and nothing changes (R67, R74).
A FAIL item raises Err(IO, 1) in every command (R67), so `k` gets a byte, or none for EOS. -/
def inPop (s : State) (k : Option Byte → State → Result) : Result :=
  match s.inq with
  | [] => .next s
  | .byte b :: rest => k (some b) (s.popped (.byte b) rest)
  | .eos :: rest => k none (s.popped .eos rest)
  | .fail :: rest => .next ((s.popped .fail rest).raise .ioSource)

/-- The sink's answer to the next OutPush; none while it does not answer (R68, R74). -/
def State.nextAnswer (s : State) : Option SinkAnswer :=
  match s.sinkAnswers with
  | a :: _ => some a
  | [] => s.sinkThen

/-- The answer just given is used up. -/
def State.answered (s : State) : State := { s with sinkAnswers := s.sinkAnswers.tail }

/-- The state after the sink took a byte: OUTQ gets it, OUTCNT counts it modulo 2^64 (R28, R68). -/
def State.pushed (s : State) (b : Byte) : State :=
  { s with outq := s.outq ++ [b], outcnt := s.outcnt + 1, sinkAnswers := s.sinkAnswers.tail }

/-- OutPush(b): the sink takes the byte and the command goes on, or it answers fail and Err(IO, 2) is raised; while it does not
answer the core waits and nothing changes (R68, R74). -/
def outPush (b : Byte) (s : State) (k : State → Result) : Result :=
  match s.nextAnswer with
  | none => .next s
  | some .ok => k (s.pushed b)
  | some .fail => .next (s.answered.raise .ioSink)

/-- Is a micro-step enabled (R10): a command runs, and the stream access it stands at can be made? -/
def State.enabled (s : State) : Bool :=
  match s.phase with
  | .idle => false
  | .profPop | .desRoot | .desTag _ | .desSym _ | .encPop | .decPop => !s.inq.isEmpty
  | .serPush _ | .encPush _ _ | .encFlush | .decPush _ => s.nextAnswer.isSome

end Sys2Proof.Machine
end

