-- ==== Sys2Proof/Machine/BitStreamUnit.lean ====
section
/-! DEFINITION. The BitStreamCodec's micro-steps: the packer of ENC (45_bitstream.md R201 to R203) and the unpacker and tree
walker of DEC (R204 to R207). -/

namespace Sys2Proof.Machine

/-- ((ACC << 1) OR v) AND 0xFF (R202). -/
def State.shiftedIn (s : State) (v : Bool) : Byte := (s.acc <<< 1) ||| (BitVec.ofBool v).setWidth 8

/-- One bit shifted into the accumulator (R202). -/
def State.putBit (s : State) (v : Bool) : State := { s with acc := s.shiftedIn v, nacc := s.nacc + 1 }

/-- The accumulator emptied (R202, R203). -/
def State.emptyAcc (s : State) : State := { s with acc := 0, nacc := 0 }

/-- ENC puts the bits of a code, until one fills a group of eight, which is to be pushed, or the code is done and the next item is
to be popped (R201, R202). The filling bit is shifted in by the micro-step of the push, so that between micro-steps NACC is at
most 7 and ACC holds no bit above it (R35; log entry 10). -/
def putBits : List Bool → State → State
  | [], s => { s with phase := .encPop }
  | v :: rest, s =>
    if s.nacc = 7 then { s with phase := .encPush v rest } else putBits rest (s.putBit v)

/-- ENC ends: the accumulator empty, FIN set (R201, R203). -/
def State.encDone (s : State) : State := ({ s.emptyAcc with fin := true } : State).finish

/-- ENC from its InPop: a byte without a code raises NOCODE before any bit is put; at EOS a partial group is still to be
pushed (R201, R203, R274 d). -/
def encPopMicro (s : State) : Result :=
  inPop s fun item s =>
    match item with
    | some b =>
      if (entry s.code b).len = 0 then .next (s.raise .noCode) else .next (putBits (entry s.code b).path s)
    | none => if s.nacc = 0 then .next s.encDone else .next { s with phase := .encFlush }

/-- ENC from the OutPush of PutBit: the seven bits in ACC and the eighth are pushed, and ACC is emptied when the sink takes them
(R202). -/
def encPushMicro (v : Bool) (rest : List Bool) (s : State) : Result :=
  outPush (s.shiftedIn v) s fun s => .next (putBits rest s.emptyAcc)

/-- ENC from the OutPush of Flush: the group moved up, zeros below (R203). -/
def encFlushMicro (s : State) : Result :=
  outPush (s.acc <<< (8 - s.nacc.toNat)) s fun s => .next s.encDone

/-- The next payload bit is taken: bit 7 first (R205). -/
def State.bitTaken (s : State) : State := { s with dbyte := s.dbyte <<< 1, dbits := s.dbits - 1 }

/-- The walk goes on to a child: NIL raises Err(CORRUPT, 1); a Leaf gives its symbol, which is to be pushed; at an Internal
node `k` takes the next bit (R206). -/
def walkTo (child : NodeIdx) (s : State) (k : State → Result) : Result :=
  if child = Config.nil then .next (s.raise .noChild)
  else
    match nodeAt s.nodes child with
    | none => .fault .undefinedNode
    | some (.leaf sym _) => .next { s with cur := child, phase := .decPush sym }
    | some (.internal _ _ _) => k { s with cur := child }

/-- One bit of the walk at CUR: 0 left, 1 right; at a Leaf, which only a Leaf root can be, 0 is the symbol and 1 raises
Err(CORRUPT, 1) (R206). -/
def walkBit (v : Bool) (s : State) (k : State → Result) : Result :=
  match nodeAt s.nodes s.cur with
  | none => .fault .undefinedNode
  | some (.leaf sym _) => if v then .next (s.raise .noChild) else .next { s with phase := .decPush sym }
  | some (.internal _ l r) => walkTo (if v then r else l) s k

/-- DEC walks on with the `n` bits left in DBYTE, until a symbol is found or no bit is left and a byte has to be popped
(R205, R206). -/
def decBits : Nat → State → Result
  | 0, s => .next { s with phase := .decPop }
  | n + 1, s => walkBit s.dbyte.msb s.bitTaken (decBits n)

/-- Symbol(): with no tree Err(CORRUPT, 3), before any bit is fetched; else the walk starts at the root (R206). -/
def decSymbol (s : State) : Result :=
  if s.root = Config.nil then .next (s.raise .noTree) else decBits s.dbits.toNat { s with cur := s.root }

/-- The loop head of DEC: one more symbol while DECODED < EXPECTED, else FIN and complete (R204, R207). -/
def decNext (s : State) : Result :=
  if s.decoded < s.expected then decSymbol s else .next ({ s with fin := true } : State).finish

/-- DEC from the InPop of NextBit: the byte is unpacked; EOS raises Err(CORRUPT, 2) (R205). -/
def decPopMicro (s : State) : Result :=
  inPop s fun item s =>
    match item with
    | some b => decBits 8 { s with dbyte := b, dbits := 8 }
    | none => .next (s.raise .payloadExhausted)

/-- DEC from the OutPush of a symbol: DECODED counts it after the sink took it (R204, R274 e). -/
def decPushMicro (sym : Byte) (s : State) : Result :=
  outPush sym s fun s => decNext { s with decoded := s.decoded + 1 }

end Sys2Proof.Machine
end

