-- ==== Sys2Proof/Machine/ProfilerUnit.lean ====
section
/-! DEFINITION. The FrequencyProfiler's micro-step (41_profiler.md R120). -/

namespace Sys2Proof.Machine

/-- Count one data byte (R120). -/
def State.counted (s : State) (b : Byte) : State :=
  { s with freq := setEntry s.freq b (entry s.freq b + 1), total := s.total + 1 }

/-- PROF from its InPop to the next, or to its end: overflow is tested after the pop and before the count (R120, R274 b). -/
def profMicro (s : State) : Result :=
  inPop s fun item s =>
    match item with
    | some b => if s.total = BitVec.allOnes 64 then .next (s.raise .overflow) else .next (s.counted b)
    | none => .next ({ s with fv := true } : State).finish

end Sys2Proof.Machine
end

