-- ==== Sys2Proof/Machine/TreeCodecUnit.lean ====
section
/-! DEFINITION. The TreeCodec's micro-steps: TSER's walk (44_treecodec.md R176) and TDES's Des() with its stack of unfinished
calls (R177, R178). -/

namespace Sys2Proof.Machine

/-- A child still to be serialized: none where it is absent (R176). -/
def serChild (i : NodeIdx) : List SerWork := if i = Config.nil then [] else [.node i]

/-- TSER with `todo` still to write: at the next OutPush, or complete (R176). -/
def serGoOn (todo : List SerWork) (s : State) : State :=
  match todo with
  | [] => s.finish
  | _ :: _ => { s with phase := .serPush todo }

/-- TSER from its OutPush to the next, or to its end: a Leaf is 0x00 and its symbol, an Internal node 0x01, then its left and
its right subtree (R175, R176). -/
def serMicro (todo : List SerWork) (s : State) : Result :=
  match todo with
  | [] => .next s.finish
  | .sym b :: rest => outPush b s fun s => .next (serGoOn rest s)
  | .node i :: rest =>
    match nodeAt s.nodes i with
    | none => .fault .undefinedNode
    | some (.leaf sym _) => outPush 0x00 s fun s => .next (serGoOn (.sym sym :: rest) s)
    | some (.internal _ l r) => outPush 0x01 s fun s => .next (serGoOn (serChild l ++ serChild r ++ rest) s)

/-- Write a child field of a NODE entry (R177). -/
def State.modifyNode (s : State) (i : NodeIdx) (f : Node → Node) : State :=
  { s with nodes := s.nodes.modify i.toNat f }

/-- TDES has read its whole tree: ROOT is written last, then SHAPE and TV, and it completes (R177). -/
def State.treeRead (s : State) (root : NodeIdx) (shape : BitVec 2) : State :=
  ({ s with root := root, shape := shape, tv := true } : State).finish

/-- Des() returns node `r` to the innermost unfinished call: a left child read, the right child is next; a right child read,
the node itself is returned; with no call left the root has been read (R177). -/
def desReturn (r : NodeIdx) : List DesFrame → State → State
  | [], s => s.treeRead r 2
  | .lone :: _, s => (s.modifyNode 0 (Node.withLeft r)).treeRead 0 1
  | .left i :: stack, s => { s.modifyNode i (Node.withLeft r) with phase := .desTag (.right i :: stack) }
  | .right i :: stack, s => desReturn i stack (s.modifyNode i (Node.withRight r))

/-- GetByte(): the byte popped; EOS raises Err(FORMAT, 2), FAIL Err(IO, 1) (R178). -/
def getByte (s : State) (k : Byte → State → Result) : Result :=
  inPop s fun item s =>
    match item with
    | some b => k b s
    | none => .next (s.raise .truncatedTree)

/-- The next NODE entry: allocated and written in one step (R177). -/
def State.allocated (s : State) (n : Node) : State := { s with nodes := s.nodes ++ [n] }

/-- TDES 1 at the root's tag (R177, R274 c). -/
def desRootMicro (s : State) : Result :=
  getByte s fun t s =>
    if t ≠ 0x01 then .next (s.raise .rootNotInternal)
    else .next { s.allocated (.internal 0 Config.nil Config.nil) with phase := .desTag [.lone] }

/-- TDES at a node's tag: the tag's value, then the table's capacity, then an Internal node is allocated or a Leaf's symbol is
to be read (R177, R274 c). -/
def desTagMicro (stack : List DesFrame) (s : State) : Result :=
  getByte s fun t s =>
    if t ≠ 0x00 ∧ t ≠ 0x01 then .next (s.raise .badTag)
    else if s.nnodes = Config.nodeCap then .next (s.raise .tableFull)
    else if t = 0x00 then .next { s with phase := .desSym stack }
    else .next { s.allocated (.internal 0 Config.nil Config.nil) with
      phase := .desTag (.left (BitVec.ofNat 9 s.nnodes) :: stack) }

/-- TDES at a Leaf's symbol: the Leaf is allocated only now, and returned (R177). -/
def desSymMicro (stack : List DesFrame) (s : State) : Result :=
  getByte s fun b s =>
    .next (desReturn (BitVec.ofNat 9 s.nnodes) stack { s.allocated (.leaf b 0) with nsym := s.nsym + 1 })

end Sys2Proof.Machine
end

