-- ==== Sys2Proof/Machine/CoreTurn.lean ====
section
/-! DEFINITION. The core's micro-steps (00_scope.md R10 b): one, or as many as are enabled up to a bound. -/

namespace Sys2Proof.Machine

/-- One micro-step: the run of the accepted command's pseudocode from the stream access it stands at up to the next, or up to
its end (R10 b). Where none is enabled the state stays as it is (R74). -/
def micro (s : State) : Result :=
  match s.phase with
  | .idle => .next s
  | .profPop => profMicro s
  | .serPush todo => serMicro todo s
  | .desRoot => desRootMicro s
  | .desTag stack => desTagMicro stack s
  | .desSym stack => desSymMicro stack s
  | .encPop => encPopMicro s
  | .encPush v rest => encPushMicro v rest s
  | .encFlush => encFlushMicro s
  | .decPop => decPopMicro s
  | .decPush sym => decPushMicro sym s

/-- At most `n` micro-steps, as long as one is enabled (R10). -/
def runMicro : Nat → State → Result
  | 0, s => .next s
  | n + 1, s => if s.enabled then andThen (micro s) (runMicro n) else .next s

/-- After the accept of a streaming command the core takes up to `pace` micro-steps before the host's next move (R10 leaves
the order of moves open; log entry 3). -/
def goOn (s : State) : Result := runMicro s.pace s

end Sys2Proof.Machine
end

