-- ==== Sys2Proof/Machine/BitStream.lean ====
section
/-! DEFINITION. The BitStreamCodec's commands ENC and DEC (45_bitstream.md R201, R204). -/

namespace Sys2Proof.Machine

/-- ENC (R201). -/
def execEnc (s : State) : Result :=
  issued .enc s fun s => goOn { s.emptyAcc with phase := .encPop }

/-- DEC expected (R204). -/
def execDec (expected : Data) (s : State) : Result :=
  issued (.dec expected) s fun s =>
    andThen (decNext { s with expected := expected, decoded := 0, dbyte := 0, dbits := 0, cur := Config.nil }) goOn

end Sys2Proof.Machine
end

