-- ==== Sys2Proof/Machine/CodeBook.lean ====
section
/-! DEFINITION. The CodeBookGenerator's command GEN (43_codebook.md R160 to R165). -/

namespace Sys2Proof.Machine

/-- The whole code entry of a Leaf's symbol: its path, an empty path read as the one bit 0 (R161, R162). Bits beyond the
length are 0 (R32, R249; log entry 9). -/
def codeOfPath (p : List Bool) : Code := Code.ofPath (if p = [] then [false] else p)

/-- Walk(i, p): left before right, an absent child skipped, a Leaf's symbol given its path (R161). `n` counts the levels PATH
has room for: a path of more than 255 bits, or an index that names no entry, stops the model (log entry 12). -/
def walk (nodes : List Node) : Nat → NodeIdx → List Bool → Vector Code 256 → Except Fault (Vector Code 256)
  | 0, _, _, _ => .error .pathOverflow
  | n + 1, i, p, code =>
    match nodeAt nodes i with
    | none => .error .undefinedNode
    | some (.leaf sym _) => .ok (setEntry code sym (codeOfPath p))
    | some (.internal _ l r) =>
      match (if l = Config.nil then .ok code else walk nodes n l (p ++ [false]) code) with
      | .error f => .error f
      | .ok code => if r = Config.nil then .ok code else walk nodes n r (p ++ [true]) code

/-- The code table with every entry empty (R160). -/
def emptyCode : Vector Code 256 := Vector.replicate 256 ⟨0, 0⟩

/-- GEN is done: the table written, BV set. PATH and DEPTH have been used if there was a tree to walk, and then hold any value
(R37, U8; log entry 8). -/
def State.generated (s : State) (code : Vector Code 256) (walked : Bool) : State :=
  { s with
    code := code
    bv := true
    path := if walked then Config.scratchPath s.draws else s.path
    depth := if walked then Config.scratchDepth s.draws else s.depth
    draws := if walked then s.draws + 1 else s.draws }

/-- GEN (R160). -/
def execGen (s : State) : Result :=
  issued .gen s fun s =>
    if s.root = Config.nil then complete 0 (s.generated emptyCode false)
    else
      match walk s.nodes (Config.maxDepth + 1) s.root [] emptyCode with
      | .ok code => complete 0 (s.generated code true)
      | .error f => .fault f

end Sys2Proof.Machine
end

