-- ==== Sys2Proof/Machine/Profiler.lean ====
section
/-! DEFINITION. The FrequencyProfiler's commands PROF and LDF (41_profiler.md R120, R121). -/

namespace Sys2Proof.Machine

/-- PROF (R120). -/
def execProf (s : State) : Result :=
  issued .prof s fun s => goOn { s with phase := .profPop }

/-- LDF sym, count (R121). -/
def execLdf (sym : Idx) (count : Data) (s : State) : Result :=
  issued (.ldf sym count) s fun s =>
    complete 0 { s with
      freq := setEntry s.freq (symbolOf sym) count
      total := BitVec.ofNat 64 (ldfTotal (symbolOf sym) count s)
      fv := true }

end Sys2Proof.Machine
end

