-- ==== Sys2Proof/Machine/System.lean ====
section
/-! DEFINITION. The system commands CLR, RDR, RDF, RDN and RDC (47_system.md R245 to R249). -/

namespace Sys2Proof.Machine

/-- CLR (R245). -/
def execClr (s : State) : Result :=
  issued .clr s fun s => complete 0 { s.cleared with curop := Instr.clr.opcode }

/-- RDR reg (R246). -/
def execRdr (reg : Idx) (s : State) : Result :=
  issued (.rdr reg) s fun s => complete (s.register reg) s

/-- RDF sym (R247). -/
def execRdf (sym : Idx) (s : State) : Result :=
  issued (.rdf sym) s fun s => complete (entry s.freq (symbolOf sym)) s

/-- RDN sel, idx (R248). An index at or above NNODES has been rejected, so the entry is defined. -/
def execRdn (sel : Byte) (idx : Idx) (s : State) : Result :=
  issued (.rdn sel idx) s fun s =>
    match s.nodes[idx.toNat]? with
    | some n => complete (n.selected sel) s
    | none => reject rejRange s

/-- RDC sel, sym (R249). -/
def execRdc (sel : Byte) (sym : Idx) (s : State) : Result :=
  issued (.rdc sel sym) s fun s => complete ((entry s.code (symbolOf sym)).selected sel) s

end Sys2Proof.Machine
end

