-- ==== Sys2Proof/Machine/TreeBuilder.lean ====
section
/-! DEFINITION. The TreeBuilder's command BUILD (42_treebuilder.md R140 to R146). -/

namespace Sys2Proof.Machine

/-- The 256 symbols in ascending order. -/
def symbols : List Byte := (List.range 256).map (BitVec.ofNat 8)

/-- MakeLeaves: one Leaf per symbol with a nonzero count, in ascending symbol order (R141). -/
def makeLeaves (freq : Vector Data 256) : List Node :=
  (symbols.filter fun b => entry freq b != 0).map fun b => .leaf b (entry freq b)

/-- NODE[i].w. Every index in PQ names a defined entry; the 0 stands for an index that names none, which no call reaches. -/
def weightAt (nodes : List Node) (i : NodeIdx) : Data :=
  match nodeAt nodes i with
  | some n => n.w
  | none => 0

/-- Insert: x goes behind every element whose weight is less than or equal to its own (R142). -/
def insertPq (nodes : List Node) (pq : List NodeIdx) (x : NodeIdx) : List NodeIdx :=
  let p := pq.countP fun y => decide (weightAt nodes y ≤ weightAt nodes x)
  pq.take p ++ x :: pq.drop p

/-- What BUILD works on: the NODE table so far and PQ. -/
structure Forest where
  nodes : List Node
  pq : List NodeIdx
  deriving DecidableEq, Repr

/-- Merge: the first two of PQ become the left and the right child of a new node of their summed weight, which is inserted
again (R143, R146). The sum is on 64 bits (log entry 11). -/
def Forest.merge (f : Forest) : Forest :=
  match f.pq with
  | a :: b :: rest =>
    let nodes := f.nodes ++ [.internal (weightAt f.nodes a + weightAt f.nodes b) a b]
    ⟨nodes, insertPq nodes rest (BitVec.ofNat 9 f.nodes.length)⟩
  | _ => f

/-- Merge while PQ holds more than one node (R140); each merge shortens PQ by one, so `n` is the length of PQ at the start. -/
def Forest.mergeAll : Nat → Forest → Forest
  | 0, f => f
  | n + 1, f => if 1 < f.pq.length then mergeAll n f.merge else f

/-- The leaves inserted into an empty PQ in index order (R140). -/
def Forest.ofLeaves (leaves : List Node) : Forest :=
  ⟨leaves, ((List.range leaves.length).map (BitVec.ofNat 9)).foldl (insertPq leaves) []⟩

/-- The tree of n >= 2 leaves (R140). -/
def Forest.grown (leaves : List Node) : Forest := (Forest.ofLeaves leaves).mergeAll leaves.length

/-- The body of BUILD: no leaf (R144), one leaf under a synthetic root of the leaf's weight (R145), or the greedy merge
(R140). -/
def State.built (s : State) : State :=
  let leaves := makeLeaves s.freq
  let s := { s with nsym := BitVec.ofNat 9 leaves.length, tv := true }
  match leaves with
  | [] => { s with root := Config.nil, nodes := [], shape := 0 }
  | [l] => { s with root := 1, nodes := [l, .internal l.w 0 Config.nil], shape := 1 }
  | _ :: _ :: _ =>
    { s with
      root := (Forest.grown leaves).pq.headD Config.nil, nodes := (Forest.grown leaves).nodes, shape := 2, pq := [] }

/-- BUILD (R140). -/
def execBuild (s : State) : Result :=
  issued .build s fun s => complete 0 s.built

end Sys2Proof.Machine
end

