-- ==== Sys2Proof/Machine/TreeCodec.lean ====
section
/-! DEFINITION. The TreeCodec's commands TSER and TDES (44_treecodec.md R176, R177). -/

namespace Sys2Proof.Machine

/-- TSER (R176): with no tree it completes at once. -/
def execTser (s : State) : Result :=
  issued .tser s fun s => goOn (serGoOn (serChild s.root) s)

/-- What TDES does before its first InPop, by shape (R177): NNODES and NSYM are 0; shape 0 reads nothing. -/
def State.desStart (s : State) (shape : BitVec 2) : State :=
  let s := { s with nodes := [], nsym := 0 }
  if shape = 0 then s.treeRead Config.nil 0
  else if shape = 1 then { s with phase := .desRoot }
  else { s with phase := .desTag [] }

/-- TDES shape (R177). -/
def execTdes (shape : BitVec 2) (s : State) : Result :=
  issued (.tdes shape) s fun s => goOn (s.desStart shape)

end Sys2Proof.Machine
end

