-- ==== Sys2Proof/Machine/Dispatch.lean ====
section
/-! DEFINITION. One arm per command (30_encoding.md R94). -/

namespace Sys2Proof.Machine

def exec (i : Instr) (s : State) : Host.Outcome State Fault Refusal :=
  match i with
  | .clr => Sys2Proof.Machine.execClr s
  | .prof => Sys2Proof.Machine.execProf s
  | .ldf sym count => Sys2Proof.Machine.execLdf sym count s
  | .build => Sys2Proof.Machine.execBuild s
  | .gen => Sys2Proof.Machine.execGen s
  | .tser => Sys2Proof.Machine.execTser s
  | .tdes shape => Sys2Proof.Machine.execTdes shape s
  | .enc => Sys2Proof.Machine.execEnc s
  | .dec expected => Sys2Proof.Machine.execDec expected s
  | .rdr reg => Sys2Proof.Machine.execRdr reg s
  | .rdf sym => Sys2Proof.Machine.execRdf sym s
  | .rdn sel idx => Sys2Proof.Machine.execRdn sel idx s
  | .rdc sel sym => Sys2Proof.Machine.execRdc sel sym s

end Sys2Proof.Machine
end

