-- ==== Sys2Proof/Machine/HostMoves.lean ====
section
/-! DEFINITION. The moves of R10 (00_scope.md) and hardware reset (70_reset_and_hazards.md R300). -/

namespace Sys2Proof.Machine

/-- The host issues (CW, WDATA): an illegal word is rejected with REJ_ILLEGAL, any other goes through the checks of its
command (R96). -/
def issueWord (cw : Word) (wdata : Data) (s : State) : Result :=
  match decode cw wdata with
  | .ok i => exec i s
  | .error _ => reject rejIllegal s

/-- One move of R10, or a hardware reset: reset abandons a running command without a response and leaves the streams alone
(R300). Taking a byte from an empty OUTQ changes nothing (log entry 14). -/
def takeMove (m : Move) (s : State) : Result :=
  match m with
  | .issue cw wdata => issueWord cw wdata s
  | .core => micro s
  | .push it => .next { s with inq := s.inq ++ [it] }
  | .take => .next { s with outq := s.outq.tail }
  | .answer a => .next { s with sinkAnswers := s.sinkAnswers ++ [a] }
  | .reset => .next s.cleared

/-- The next move: the first of the script, or, when the host has none, a micro-step of the core (R10, R12; log entries 1
and 2). -/
def nextMove (s : State) : Result :=
  match s.moves with
  | [] => micro s
  | m :: rest => takeMove m { s with moves := rest }

/-- The state with a command placed at the head of the script, so that the next move issues it (log entries 1 and 18). -/
def State.withCommand (s : State) (cw : Word) (wdata : Data) : State :=
  { s with moves := .issue cw wdata :: s.moves }

end Sys2Proof.Machine
end

