-- ==== Sys2Proof/Machine/Step.lean ====
section
/-! DEFINITION. The step: one move of the host, of the scheduler or of the core (00_scope.md R10). -/

namespace Sys2Proof.Machine

/-- One step (R10). -/
def step (s : State) : Host.Outcome State Fault Refusal := nextMove s

/-- The state whose next step issues the instruction of `nbits` bits numbered `w`: commands arrive on the command channel, not
from a memory (R73), so the command is put first in the host's script. -/
def State.withFetchWord (s : State) (nbits w : Nat) : State :=
  s.withCommand (commandOf nbits w).1 (commandOf nbits w).2

end Sys2Proof.Machine
end

