-- ==== Sys2Proof/Machine/Flows.lean ====
section
/-! DEFINITION. The host's notation: the assembler line of a command (30_encoding.md R101) and the pseudo-commands COMPRESS,
DECOMPRESS and DECOMPRESS_F as scripts of host moves (R102; the flows of 46_container.md R232 and R233). -/

namespace Sys2Proof.Machine

/-- The line of a command: the mnemonic, then its operands in the order of R101, numbers decimal. -/
def assembly : Instr → String
  | .clr => "CLR"
  | .prof => "PROF"
  | .ldf sym count => "LDF " ++ toString sym.toNat ++ ", " ++ toString count.toNat
  | .build => "BUILD"
  | .gen => "GEN"
  | .tser => "TSER"
  | .tdes shape => "TDES " ++ toString shape.toNat
  | .enc => "ENC"
  | .dec expected => "DEC " ++ toString expected.toNat
  | .rdr reg => "RDR " ++ toString reg.toNat
  | .rdf sym => "RDF " ++ toString sym.toNat
  | .rdn sel idx => "RDN " ++ toString sel.toNat ++ ", " ++ toString idx.toNat
  | .rdc sel sym => "RDC " ++ toString sel.toNat ++ ", " ++ toString sym.toNat

/-- The host issues a command: the assembled form (CW, WDATA) of its line (R101). -/
def issue (i : Instr) : Move := .issue (encode i).1 (encode i).2

/-- The line `.in`: the host pushes data bytes, then EOS (R101). -/
def supply (bytes : List Byte) : List Move := bytes.map (fun b => .push (.byte b)) ++ [.push .eos]

/-- COMPRESS: the source is pushed twice, for PROF and for ENC; then SHAPE and TOTAL are read (R102, R232). -/
def compress (src : List Byte) : List Move :=
  issue .clr :: supply src ++ [issue .prof, issue .build, issue .gen, issue .tser] ++ supply src
    ++ [issue .enc, issue (.rdr 0), issue (.rdr 1)]

/-- DECOMPRESS shape, n: the serialized tree and the payload are pushed, then EOS (R102, R233). -/
def decompress (shape : BitVec 2) (n : Data) (treeAndPayload : List Byte) : List Move :=
  supply treeAndPayload ++ [issue .clr, issue (.tdes shape), issue (.dec n)]

/-- DEC directly after BUILD, with no stored tree: the source is profiled again, the tree built, and the payload decoded (R209). -/
def decodeAfterBuild (src : List Byte) (n : Data) (payload : List Byte) : List Move :=
  issue .clr :: supply src ++ [issue .prof, issue .build] ++ supply payload ++ [issue (.dec n)]

/-- DECOMPRESS_F: the 256 stored frequencies are loaded, the tree is rebuilt, and the payload is decoded up to the stored
total (R102). -/
def decompressF (freq : Vector Data 256) (total : Data) (payload : List Byte) : List Move :=
  issue .clr :: (symbols.map fun b => issue (.ldf (b.setWidth 16) (entry freq b)))
    ++ [issue .build, issue (.rdr 1)] ++ supply payload ++ [issue (.dec total)]

end Sys2Proof.Machine
end

