-- ==== Sys2Proof/Safety.lean ====
section
/-! DEFINITION. The terms claims are stated in: abstract trees and what it means that the NODE table holds one, the serialized
form and the codes of a tree, the packed payload, what the sink will answer, the invariants, and runs under any host. None of
this is used by the machine. -/

namespace Sys2Proof.Safety

open Sys2Proof.Machine

/-- A full binary tree with symbols at its leaves (10_state.md R31 b). -/
inductive Tree
  | leaf (sym : Byte)
  | node (l r : Tree)
  deriving DecidableEq, Repr

/-- How many nodes. -/
def Tree.size : Tree → Nat
  | .leaf _ => 1
  | .node l r => 1 + l.size + r.size

/-- How many leaves. -/
def Tree.leafCount : Tree → Nat
  | .leaf _ => 1
  | .node l r => l.leafCount + r.leafCount

/-- How many edges from the root to the deepest leaf. -/
def Tree.depth : Tree → Nat
  | .leaf _ => 0
  | .node l r => 1 + max l.depth r.depth

/-- The serialized form of a subtree: 0x00 and the symbol, or 0x01, the left and the right subtree (44_treecodec.md R175). -/
def Tree.bytes : Tree → List Byte
  | .leaf sym => [0x00, sym]
  | .node l r => 0x01 :: (l.bytes ++ r.bytes)

/-- Every leaf's symbol with its root-to-leaf path, 0 left and 1 right, in left-before-right order (43_codebook.md R161). -/
def Tree.paths : Tree → List (Byte × List Bool)
  | .leaf sym => [(sym, [])]
  | .node l r => (l.paths.map fun x => (x.1, false :: x.2)) ++ (r.paths.map fun x => (x.1, true :: x.2))

/-- The NODE entries TDES makes of a subtree when the next free index is `base`: preorder numbering, every weight 0
(44_treecodec.md R177 b, c). -/
def Tree.layout : Tree → Nat → List Node
  | .leaf sym, _ => [.leaf sym 0]
  | .node l r, base =>
    .internal 0 (BitVec.ofNat 9 (base + 1)) (BitVec.ofNat 9 (base + 1 + l.size))
      :: (l.layout (base + 1) ++ r.layout (base + 1 + l.size))

/-- The NODE table holds this tree at index `i`, with no child absent. -/
def Tree.heldAt (nodes : List Node) : Tree → NodeIdx → Bool
  | .leaf sym, i =>
    match nodeAt nodes i with
    | some (.leaf sym' _) => sym' == sym
    | some (.internal _ _ _) => false
    | none => false
  | .node l r, i =>
    match nodeAt nodes i with
    | some (.internal _ a b) => a != Config.nil && b != Config.nil && l.heldAt nodes a && r.heldAt nodes b
    | some (.leaf _ _) => false
    | none => false

/-- What SHAPE tells apart (10_state.md R24): no tree, a root whose right child is absent, a full tree. -/
inductive Shaped
  | empty
  | lone (t : Tree)
  | full (t : Tree)
  deriving DecidableEq, Repr

/-- The value of SHAPE (R24). -/
def Shaped.shape : Shaped → BitVec 2
  | .empty => 0
  | .lone _ => 1
  | .full _ => 2

/-- The serialized tree (44_treecodec.md R175). -/
def Shaped.bytes : Shaped → List Byte
  | .empty => []
  | .lone t => 0x01 :: t.bytes
  | .full t => t.bytes

/-- How many nodes, the root of a shape-1 tree among them. -/
def Shaped.size : Shaped → Nat
  | .empty => 0
  | .lone t => 1 + t.size
  | .full t => t.size

/-- How many leaves (NSYM, 10_state.md R26). -/
def Shaped.leafCount : Shaped → Nat
  | .empty => 0
  | .lone t => t.leafCount
  | .full t => t.leafCount

/-- How many edges to the deepest leaf. -/
def Shaped.depth : Shaped → Nat
  | .empty => 0
  | .lone t => 1 + t.depth
  | .full t => t.depth

/-- Every leaf's symbol with its code: the path, the empty path read as the one bit 0 (43_codebook.md R161, R162). -/
def Shaped.codes : Shaped → List (Byte × List Bool)
  | .empty => []
  | .lone t => t.paths.map fun x => (x.1, false :: x.2)
  | .full t => t.paths.map fun x => (x.1, if x.2 = [] then [false] else x.2)

/-- The NODE table TDES makes (44_treecodec.md R177). -/
def Shaped.layout : Shaped → List Node
  | .empty => []
  | .lone t => .internal 0 1 Config.nil :: t.layout 1
  | .full t => t.layout 0

/-- The ROOT TDES leaves (44_treecodec.md R177). -/
def Shaped.root : Shaped → NodeIdx
  | .empty => Config.nil
  | .lone _ => 0
  | .full _ => 0

/-- The NODE table and ROOT hold this tree. -/
def Shaped.heldAt (nodes : List Node) (root : NodeIdx) : Shaped → Bool
  | .empty => root == Config.nil
  | .lone t =>
    root != Config.nil &&
    match nodeAt nodes root with
    | some (.internal _ a b) => a != Config.nil && b == Config.nil && t.heldAt nodes a
    | some (.leaf _ _) => false
    | none => false
  | .full t => root != Config.nil && t.heldAt nodes root

/-- Has the node at `i` no child on the side the bit indicates: 0 left, 1 right? A Leaf, where DEC stands only when it is the
root, is decoded as a left child only (45_bitstream.md R206). -/
def noChild (nodes : List Node) (i : NodeIdx) (v : Bool) : Bool :=
  match nodeAt nodes i with
  | some (.internal _ l r) => (if v then r else l) == Config.nil
  | some (.leaf _ _) => v
  | none => false

/-- The code table of a list of codes: a later one for the same symbol replaces an earlier one (43_codebook.md R165). -/
def codeTable (codes : List (Byte × List Bool)) : Vector Code 256 :=
  codes.foldl (fun t x => setEntry t x.1 (Code.ofPath x.2)) (Vector.replicate 256 ⟨0, 0⟩)

/-- The packed payload of a bit sequence: bit k is bit 7 - (k mod 8) of byte k / 8, the last byte filled with zeros
(20_memory.md R63, 45_bitstream.md R200). -/
def packed (bits : List Bool) : List Byte :=
  (List.range ((bits.length + 7) / 8)).map fun j =>
    (BitVec.ofBoolListBE [bits.getD (8 * j) false, bits.getD (8 * j + 1) false, bits.getD (8 * j + 2) false,
      bits.getD (8 * j + 3) false, bits.getD (8 * j + 4) false, bits.getD (8 * j + 5) false,
      bits.getD (8 * j + 6) false, bits.getD (8 * j + 7) false] : BitVec 8)

/-- The code bits of a source under a code table, in order (45_bitstream.md R200). -/
def codeBits (code : Vector Code 256) (src : List Byte) : List Bool := src.flatMap fun b => (entry code b).path

/-- The bits of a payload in the order DEC takes them: bit 7 of each byte first (20_memory.md R63, 45_bitstream.md R205). -/
def payloadBits (payload : List Byte) : List Bool := payload.flatMap fun b => (List.range 8).map b.getMsbD

/-- The sink answers ok to each of the next `n` OutPushes. -/
def sinkTakes (n : Nat) (s : State) : Bool :=
  (s.sinkAnswers.take n).all (· == .ok) && (decide (n ≤ s.sinkAnswers.length) || s.sinkThen == some .ok)

/-- The sum of all FREQ entries (10_state.md R27). -/
def freqSum (freq : Vector Data 256) : Nat := (symbols.map fun b => (entry freq b).toNat).sum

/-- The number of distinct symbols n (42_treebuilder.md R141). -/
def distinct (freq : Vector Data 256) : Nat := (symbols.filter fun b => entry freq b != 0).length

/-- The order of extraction: by weight, and among equal weights by age, the node index (42_treebuilder.md R142, R146). -/
def before (nodes : List Node) (y z : NodeIdx) : Prop :=
  weightAt nodes y < weightAt nodes z ∨ weightAt nodes y = weightAt nodes z ∧ y < z

/-- Is node `c` a child of none of the entries below index `k`? Of the nodes below `k`, these are the ones still in PQ when node
`k` is made (42_treebuilder.md R143). -/
def unmerged (nodes : List Node) (k : Nat) (c : NodeIdx) : Prop :=
  c.toNat < k ∧ ∀ n ∈ nodes.take k, n.left ≠ c ∧ n.right ≠ c

/-- The pairs (ERRCODE, ERRSUB) of 60_exceptions.md R266 with an error latched. -/
def errorPairs : List (BitVec 4 × BitVec 4) :=
  [(1, 1), (1, 2), (2, 1), (2, 2), (2, 3), (2, 4), (3, 1), (3, 2), (3, 3), (4, 0), (5, 0)]

/-- What the flags say while a command runs: each was accepted under its condition (30_encoding.md R97), and no running
command has an error latched (60_exceptions.md R275). -/
def phaseOk (s : State) : Bool :=
  match s.phase with
  | .idle => true
  | .profPop => !s.err && !s.fv && !s.tv && s.curop == 0x10
  | .serPush todo => !s.err && s.tv && !todo.isEmpty && s.curop == 0x40
  | .desRoot => !s.err && !s.fv && !s.tv && s.nodes.isEmpty && s.curop == 0x41
  | .desTag _ => !s.err && !s.fv && !s.tv && s.curop == 0x41
  | .desSym _ => !s.err && !s.fv && !s.tv && decide (s.nodes.length < 511) && s.curop == 0x41
  | .encPop => !s.err && s.bv && !s.fin && s.curop == 0x50
  | .encPush _ _ => !s.err && s.bv && !s.fin && s.nacc == 7 && s.curop == 0x50
  | .encFlush => !s.err && s.bv && !s.fin && s.nacc != 0 && s.curop == 0x50
  | .decPop | .decPush _ => !s.err && s.tv && !s.fin && s.curop == 0x51

/-- The invariant of the flags (10_state.md R21, R24, R25; 30_encoding.md R97, "FIN = 1 implies TV = 1; BV = 1 implies
TV = 1"). -/
def flagsOk (s : State) : Bool :=
  (!s.bv || s.tv) && (!s.fin || s.tv) && (s.shape != 3) && (s.tv || (s.shape == 0 && s.root == Config.nil))
    && (if s.err then errorPairs.contains (s.errcode, s.errsub) else s.errcode == 0 && s.errsub == 0) && phaseOk s

/-- Bits of a CODE entry beyond its length are 0 (10_state.md R32). -/
def codesTidy (code : Vector Code 256) : Prop :=
  ∀ (b : Byte) (k : Nat), (entry code b).len.toNat ≤ k → k < 256 → (entry code b).bits.getMsbD k = false

/-- The invariant of one instance: TOTAL is the sum of FREQ (R27), at most 511 NODE entries are in use (R30), the flags agree
(R21 to R25), CODE entries are left-justified with zeros behind (R32), PQ is empty outside BUILD (R34), ACC
holds no bit at or above NACC (R35), and DBITS stays in its range (R36). That ENC waits with a full group at NACC = 7 is log
entry 10. -/
def Inv (s : State) : Prop :=
  s.total.toNat = freqSum s.freq ∧ s.nnodes ≤ Config.nodeCap ∧ flagsOk s = true ∧ codesTidy s.code ∧ s.pq = [] ∧
    s.acc.toNat < 2 ^ s.nacc.toNat ∧ s.dbits.toNat ≤ 8

/-- The indices of a tree's nodes in the NODE table, root first. -/
def Tree.indices (nodes : List Node) : Tree → NodeIdx → List NodeIdx
  | .leaf _, i => [i]
  | .node l r, i =>
    match nodeAt nodes i with
    | some (.internal _ a b) => i :: (l.indices nodes a ++ r.indices nodes b)
    | some (.leaf _ _) => [i]
    | none => [i]

/-- The indices of all nodes of the tree that NODE and ROOT hold. -/
def Shaped.indices (nodes : List Node) (root : NodeIdx) : Shaped → List NodeIdx
  | .empty => []
  | .lone t =>
    match nodeAt nodes root with
    | some (.internal _ a _) => root :: t.indices nodes a
    | some (.leaf _ _) => [root]
    | none => [root]
  | .full t => t.indices nodes root

/-- 10_state.md R31 (a), (b), (e), with SHAPE: the entries form one tree, full but for a shape-1 root's right child, and every
entry 0 to NNODES-1 is reachable from ROOT exactly once. -/
def TableHoldsOneTree (s : State) : Prop :=
  ∃ h : Shaped, h.shape = s.shape ∧ h.heldAt s.nodes s.root = true ∧
    (h.indices s.nodes s.root).Perm ((List.range s.nnodes).map (BitVec.ofNat 9))

/-- The states that runs reach from reset under ANY host: before every step the host may choose its streams, its moves, the
sink's answers and the pace anew (00_scope.md R10: all of them are the environment's). -/
inductive Reachable : State → Prop
  | reset : Reachable State.reset
  | step (s t : State) : Reachable s → Machine.step s = .next t → Reachable t
  | host (s : State) (inq : List Item) (outq : List Byte) (moves : List Move) (answers : List SinkAnswer)
      (sinkThen : Option SinkAnswer) (pace : Nat) : Reachable s →
      Reachable { s with inq := inq, outq := outq, moves := moves, sinkAnswers := answers, sinkThen := sinkThen, pace := pace }

/-- Does this step start a new operation: a CLR that is accepted (BUSY = 0), or a hardware reset (10_state.md R23, R25)? -/
def startsOperation (s : State) : Bool :=
  match s.moves with
  | [] => false
  | m :: _ =>
    match m with
    | .issue cw _ => cw == 0x01000000 && !s.busy
    | .reset => true
    | .core | .push _ | .take | .answer _ => false

end Sys2Proof.Safety
end

