-- ==== Sys2Proof/Certificates/Slice0/Obligations.lean ====
section
/-! DEFINITION. The statements for the provers, each about the machine of Sys2Proof/Machine, in the terms of
Sys2Proof/Safety.lean. A result statement gives the whole next state, so it is its instruction's frame and its completion too;
where only part of the next state is given, the rest is said to be unchanged. Hypotheses name flags and streams only. -/

open Sys2Proof Sys2Proof.Machine Sys2Proof.Safety

/-! ### Encoding -/

/-- Words written out from the opcode map of R94, one for each command, decode to that command. -/
def Obligations.WrittenWordsDecode : Prop :=
  decode 0x01000000 7 = .ok .clr ∧ decode 0x10000000 7 = .ok .prof ∧ decode 0x11000041 4 = .ok (.ldf 0x41 4) ∧
  decode 0x20000000 7 = .ok .build ∧ decode 0x30000000 7 = .ok .gen ∧ decode 0x40000000 7 = .ok .tser ∧
  decode 0x41000002 7 = .ok (.tdes 2) ∧ decode 0x50000000 7 = .ok .enc ∧ decode 0x51000000 10 = .ok (.dec 10) ∧
  decode 0x60000001 7 = .ok (.rdr 1) ∧ decode 0x61000042 7 = .ok (.rdf 0x42) ∧ decode 0x62010006 7 = .ok (.rdn 1 6) ∧
  decode 0x63040041 7 = .ok (.rdc 4 0x41)

/-- Decoding the encoding of a legal command gives it back, with every operand at every value. -/
def Obligations.DecodeOfEncodeIsTheCommand : Prop :=
  ∀ i : Instr, i.wf = true → decode (encode i).1 (encode i).2 = .ok i

/-- A word has one meaning: whatever decodes is a legal command whose word it is, and WDATA is read where it is an operand and
ignored elsewhere (R91). -/
def Obligations.EncodeOfDecodeIsTheWord : Prop :=
  ∀ (cw : Word) (wdata : Data) (i : Instr), decode cw wdata = .ok i →
    i.wf = true ∧ (encode i).1 = cw ∧
      ((∃ sym, i = .ldf sym wdata) ∨ i = .dec wdata ∨ (encode i).2 = 0 ∧ ∀ other, decode cw other = .ok i)

/-- R98 in terms of the fields of R90: exactly the listed words decode; every other word is illegal. -/
def Obligations.OnlyListedWordsAreLegal : Prop :=
  ∀ (cw : Word) (wdata : Data),
    let opc : Byte := cw.extractLsb' 24 8
    let sel : Byte := cw.extractLsb' 16 8
    let idx : Idx := cw.extractLsb' 0 16
    (∃ i, decode cw wdata = .ok i) ↔
      (opc ∈ [0x01#8, 0x10#8, 0x20#8, 0x30#8, 0x40#8, 0x50#8, 0x51#8] ∧ sel = 0 ∧ idx = 0) ∨
      (opc ∈ [0x11#8, 0x60#8, 0x61#8] ∧ sel = 0) ∨
      (opc = 0x41 ∧ sel = 0 ∧ idx.toNat < 3) ∨
      (opc = 0x62 ∧ sel.toNat < 2) ∨
      (opc = 0x63 ∧ sel.toNat < 5)

/-- R94: the rows of the opcode map are disjoint. -/
def Obligations.OpcodeRowsAreDisjoint : Prop :=
  ∀ (cw : Word) (r r' : Row), r ∈ opcodeMap → r' ∈ opcodeMap → r.selects cw = true → r'.selects cw = true → r = r'

/-! ### The step -/

/-- When the host's next move issues a word that decodes to `i`, the step is `exec i` on the state without that move; so a
table word placed by `withFetchWord` is the command the next step runs. -/
def Obligations.StepRunsTheDecodedCommand : Prop :=
  (∀ (s : State) (cw : Word) (wdata : Data) (rest : List Move) (i : Instr),
    s.moves = .issue cw wdata :: rest → decode cw wdata = .ok i → step s = exec i { s with moves := rest }) ∧
  ∀ (s : State) (nbits w : Nat) (i : Instr),
    decodeTableWord nbits w = some i → step (s.withFetchWord nbits w) = exec i s

/-- R10: what the host's other moves do, and that with no move to come the core gets its micro-step. Three clauses rest on the
model's own choices: the step with no move (log entry 2, DEDUCED), the answer move (log entry 4, DESIGN CHOICE), and that a take
on an empty OUTQ changes nothing (log entry 14, DESIGN CHOICE). -/
def Obligations.HostMovesActOnTheStreams : Prop :=
  ∀ (s : State) (rest : List Move),
    (∀ it, s.moves = .push it :: rest → step s = .next { s with moves := rest, inq := s.inq ++ [it] }) ∧
    (s.moves = .take :: rest → step s = .next { s with moves := rest, outq := s.outq.tail }) ∧
    (∀ a, s.moves = .answer a :: rest → step s = .next { s with moves := rest, sinkAnswers := s.sinkAnswers ++ [a] }) ∧
    (s.moves = .core :: rest → step s = micro { s with moves := rest }) ∧
    (s.moves = [] → step s = micro s)

/-- R96 step 1, R98: an illegal word is rejected with REJ_ILLEGAL, busy or not, and changes nothing. -/
def Obligations.IllegalWordsAreRejected : Prop :=
  ∀ (s : State) (cw : Word) (wdata : Data) (rest : List Move),
    s.moves = .issue cw wdata :: rest → (∀ i, decode cw wdata ≠ .ok i) →
      step s = .next { s with moves := rest, rsps := s.rsps ++ [⟨8, 0⟩] }

/-- R22, R96 step 2: while a command runs every legal command but RDR of registers 0, 3, 4 and 5 is rejected with REJ_BUSY,
whatever else would be wrong with it, and changes nothing. -/
def Obligations.BusyRejectsAllButFourReads : Prop :=
  ∀ (s : State) (i : Instr), i.wf = true → s.phase ≠ .idle → i ∉ [.rdr 0, .rdr 3, .rdr 4, .rdr 5] →
    exec i s = .next { s with rsps := s.rsps ++ [⟨11, 0⟩] }

/-- R97's condition of each command, as the table has it. -/
def Obligations.SequenceTable : Prop :=
  ∀ (s : State), s.phase = .idle →
    let rejected : Result := .next { s with rsps := s.rsps ++ [⟨9, 0⟩] }
    (¬(s.err = false ∧ s.fv = false ∧ s.tv = false) → exec .prof s = rejected) ∧
    (¬(s.err = false ∧ s.tv = false) → ∀ sym count, exec (.ldf sym count) s = rejected) ∧
    (¬(s.err = false ∧ s.fv = true ∧ s.tv = false) → exec .build s = rejected) ∧
    (¬(s.err = false ∧ s.tv = true ∧ s.bv = false) → exec .gen s = rejected) ∧
    (¬(s.err = false ∧ s.tv = true) → exec .tser s = rejected) ∧
    (¬(s.err = false ∧ s.fv = false ∧ s.tv = false) → ∀ shape : BitVec 2, shape ≠ 3 → exec (.tdes shape) s = rejected) ∧
    (¬(s.err = false ∧ s.bv = true ∧ s.fin = false) → exec .enc s = rejected) ∧
    (¬(s.err = false ∧ s.tv = true ∧ s.fin = false) → ∀ expected, exec (.dec expected) s = rejected)

/-- R276: while ERR = 1 every legal command but CLR and the four reads is rejected with REJ_SEQ. -/
def Obligations.ErrorStateRejects : Prop :=
  ∀ (s : State) (i : Instr), i.wf = true → s.phase = .idle → s.err = true →
    i ≠ .clr → (∀ r, i ≠ .rdr r) → (∀ b, i ≠ .rdf b) → (∀ f n, i ≠ .rdn f n) → (∀ f b, i ≠ .rdc f b) →
    exec i s = .next { s with rsps := s.rsps ++ [⟨9, 0⟩] }

/-! ### System commands -/

/-- R245, R51: CLR, in any state with BUSY = 0, puts every register, flag, table and hidden item at its reset value but CUROP,
which is 0x01; the streams are untouched. (PATH and DEPTH, which R51 leaves open, are the model's choice, log entry 8: they
are set aside.) -/
def Obligations.ClrStartsANewOperation : Prop :=
  ∀ (s : State), s.phase = .idle →
    ∃ path depth, exec .clr s = .next { State.reset with
      curop := 0x01, path := path, depth := depth, inq := s.inq, outq := s.outq, rsps := s.rsps ++ [⟨0, 0⟩], moves := s.moves,
      sinkAnswers := s.sinkAnswers, sinkThen := s.sinkThen, pace := s.pace, draws := s.draws }

/-- R300: a hardware reset, in any state, running command or not, gives no response and does not touch the streams. -/
def Obligations.HardwareResetAbandonsTheCommand : Prop :=
  ∀ (s : State) (rest : List Move), s.moves = .reset :: rest →
    ∃ path depth, step s = .next { State.reset with
      path := path, depth := depth, inq := s.inq, outq := s.outq, rsps := s.rsps, moves := rest,
      sinkAnswers := s.sinkAnswers, sinkThen := s.sinkThen, pace := s.pace, draws := s.draws }

/-- R51: the values after hardware reset. -/
def Obligations.ResetValues : Prop :=
  State.reset.status = 0 ∧ State.reset.curop = 0 ∧ State.reset.total = 0 ∧ State.reset.expected = 0 ∧
  State.reset.decoded = 0 ∧ State.reset.incnt = 0 ∧ State.reset.outcnt = 0 ∧ State.reset.root = 511 ∧
  State.reset.nnodes = 0 ∧ State.reset.nsym = 0 ∧ State.reset.freq = Vector.replicate 256 0 ∧ State.reset.nodes = [] ∧
  State.reset.code = Vector.replicate 256 ⟨0, 0⟩ ∧ State.reset.pq = [] ∧ State.reset.acc = 0 ∧ State.reset.nacc = 0 ∧
  State.reset.dbyte = 0 ∧ State.reset.dbits = 0 ∧ State.reset.cur = 511 ∧ State.reset.phase = .idle

/-- R21: the places of the fields of STATUS. -/
def Obligations.StatusLayout : Prop :=
  ∀ (s : State),
    s.status.getLsbD 0 = decide (s.phase ≠ .idle) ∧ s.status.getLsbD 1 = s.fv ∧ s.status.getLsbD 2 = s.tv ∧
    s.status.getLsbD 3 = s.bv ∧ s.status.getLsbD 4 = s.fin ∧ s.status.getLsbD 5 = s.err ∧
    s.status.extractLsb' 6 2 = s.shape ∧ s.status.extractLsb' 8 4 = s.errcode ∧ s.status.extractLsb' 12 4 = s.errsub ∧
    s.status.extractLsb' 16 8 = s.curop ∧ s.status.extractLsb' 24 40 = 0#40

/-- R246: RDR returns the register (R26), zero-extended, and changes nothing else: registers 0, 3, 4 and 5 while a command runs
too, every other number then being rejected with REJ_BUSY; a number above 8 is rejected with REJ_RANGE. That such an overlapping
read leaves BUSY at 1 is log entry 13 (DEDUCED: R246 against R8). -/
def Obligations.RdrReturnsTheRegister : Prop :=
  ∀ (s : State) (reg : Idx),
    (∀ v : Data, (reg.toNat, v) ∈ [(0, s.status), (1, s.total), (2, s.expected), (3, s.decoded), (4, s.incnt), (5, s.outcnt),
        (6, BitVec.ofNat 64 s.root.toNat), (7, BitVec.ofNat 64 s.nodes.length), (8, BitVec.ofNat 64 s.nsym.toNat)] →
      s.phase = .idle ∨ reg.toNat ∈ [0, 3, 4, 5] →
      exec (.rdr reg) s = .next { s with rsps := s.rsps ++ [⟨0, v⟩] }) ∧
    (s.phase = .idle → 8 < reg.toNat → exec (.rdr reg) s = .next { s with rsps := s.rsps ++ [⟨10, 0⟩] }) ∧
    (s.phase ≠ .idle → reg.toNat ∉ [0, 3, 4, 5] → exec (.rdr reg) s = .next { s with rsps := s.rsps ++ [⟨11, 0⟩] })

/-- R247: RDF returns the count and changes nothing else, in every idle state; a symbol above 255 is rejected with REJ_RANGE,
and every RDF with REJ_BUSY while a command runs. -/
def Obligations.RdfReturnsTheCount : Prop :=
  ∀ (s : State),
    (s.phase = .idle → ∀ b : Byte,
      exec (.rdf (b.setWidth 16)) s = .next { s with rsps := s.rsps ++ [⟨0, entry s.freq b⟩] }) ∧
    (s.phase = .idle → ∀ sym : Idx, 255 < sym.toNat →
      exec (.rdf sym) s = .next { s with rsps := s.rsps ++ [⟨10, 0⟩] }) ∧
    (s.phase ≠ .idle → ∀ sym : Idx, exec (.rdf sym) s = .next { s with rsps := s.rsps ++ [⟨11, 0⟩] })

/-- R248: RDN returns the descriptor or the weight of a defined node and changes nothing else; an index at or above NNODES is
rejected with REJ_RANGE, and every RDN with REJ_BUSY while a command runs. -/
def Obligations.RdnReturnsTheNode : Prop :=
  ∀ (s : State) (idx : Idx),
    (s.phase = .idle → ∀ sym w, s.nodes[idx.toNat]? = some (.leaf sym w) →
      exec (.rdn 0 idx) s = .next { s with
        rsps := s.rsps ++ [⟨0, BitVec.ofNat 64 (sym.toNat * 2 ^ 8 + 511 * 2 ^ 16 + 511 * 2 ^ 32)⟩] } ∧
      exec (.rdn 1 idx) s = .next { s with rsps := s.rsps ++ [⟨0, w⟩] }) ∧
    (s.phase = .idle → ∀ w l r, s.nodes[idx.toNat]? = some (.internal w l r) →
      exec (.rdn 0 idx) s = .next { s with
        rsps := s.rsps ++ [⟨0, BitVec.ofNat 64 (1 + l.toNat * 2 ^ 16 + r.toNat * 2 ^ 32)⟩] } ∧
      exec (.rdn 1 idx) s = .next { s with rsps := s.rsps ++ [⟨0, w⟩] }) ∧
    (s.phase = .idle → s.nodes.length ≤ idx.toNat → ∀ sel : Byte, sel.toNat < 2 →
      exec (.rdn sel idx) s = .next { s with rsps := s.rsps ++ [⟨10, 0⟩] }) ∧
    (s.phase ≠ .idle → ∀ sel : Byte, sel.toNat < 2 →
      exec (.rdn sel idx) s = .next { s with rsps := s.rsps ++ [⟨11, 0⟩] })

/-- R249, R65: RDC returns the length, or the word of the code vector in which bit j of the code is bit 63 - (j mod 64) of
word j / 64, and changes nothing else; a symbol above 255 is rejected with REJ_RANGE, and every RDC with REJ_BUSY while a
command runs. -/
def Obligations.RdcReturnsTheCode : Prop :=
  ∀ (s : State),
    (s.phase = .idle → ∀ b : Byte,
      exec (.rdc 0 (b.setWidth 16)) s = .next { s with
        rsps := s.rsps ++ [⟨0, BitVec.ofNat 64 (entry s.code b).len.toNat⟩] } ∧
      ∀ k, k < 4 → ∃ v : Data, (∀ j, j < 64 → v.getLsbD (63 - j) = (entry s.code b).bits.getLsbD (255 - (64 * k + j))) ∧
        exec (.rdc (BitVec.ofNat 8 (k + 1)) (b.setWidth 16)) s = .next { s with rsps := s.rsps ++ [⟨0, v⟩] }) ∧
    (s.phase = .idle → ∀ (sel : Byte) (sym : Idx), sel.toNat < 5 → 255 < sym.toNat →
      exec (.rdc sel sym) s = .next { s with rsps := s.rsps ++ [⟨10, 0⟩] }) ∧
    (s.phase ≠ .idle → ∀ (sel : Byte) (sym : Idx), sel.toNat < 5 →
      exec (.rdc sel sym) s = .next { s with rsps := s.rsps ++ [⟨11, 0⟩] })

/-! ### FrequencyProfiler -/

/-- R120, R122: PROF on a source ended by EOS counts every symbol, TOTAL and INCNT, sets FV, pops exactly the source and its
EOS, and changes nothing else. -/
def Obligations.ProfCountsTheSource : Prop :=
  ∀ (s : State) (src : List Byte) (rest : List Item),
    s.phase = .idle → s.err = false → s.fv = false → s.tv = false →
    s.inq = src.map .byte ++ .eos :: rest → s.total.toNat + src.length < 2 ^ 64 → src.length + 1 ≤ s.pace →
    exec .prof s = .next { s with
      curop := 0x10, incnt := BitVec.ofNat 64 src.length, outcnt := 0, inq := rest, fv := true
      freq := Vector.ofFn fun b : Fin 256 =>
        entry s.freq (BitVec.ofNat 8 b.val) + BitVec.ofNat 64 (src.count (BitVec.ofNat 8 b.val))
      total := s.total + BitVec.ofNat 64 src.length
      rsps := s.rsps ++ [⟨0, 0⟩] }

/-- R122: what PROF makes of a source depends on the multiset of its bytes only, not on their order. -/
def Obligations.ProfIgnoresTheOrder : Prop :=
  ∀ (s : State) (src src' : List Byte) (rest : List Item),
    s.phase = .idle → s.err = false → s.fv = false → s.tv = false → src.Perm src' →
    s.total.toNat + src.length < 2 ^ 64 → src.length + 1 ≤ s.pace →
    ∃ t, exec .prof { s with inq := src.map .byte ++ .eos :: rest } = .next t ∧
      exec .prof { s with inq := src'.map .byte ++ .eos :: rest } = .next t ∧ t.fv = true

/-- R305, R74: a source with no EOS (or FAIL) behind it leaves PROF busy: its bytes are counted, no response is given, and the
next micro-step changes nothing. -/
def Obligations.ProfWithoutEosStaysBusy : Prop :=
  ∀ (s : State) (src : List Byte),
    s.phase = .idle → s.err = false → s.fv = false → s.tv = false → s.inq = src.map .byte →
    s.total.toNat + src.length < 2 ^ 64 → src.length ≤ s.pace →
    ∃ t, exec .prof s = .next t ∧ t = { s with
        curop := 0x10, incnt := BitVec.ofNat 64 src.length, outcnt := 0, inq := [], phase := .profPop
        freq := t.freq, total := s.total + BitVec.ofNat 64 src.length } ∧
      (∀ b : Byte, entry t.freq b = entry s.freq b + BitVec.ofNat 64 (src.count b)) ∧ micro t = .next t

/-- R120: a source that fails part-way: IO sub 1, the counts of the bytes before the failure kept, FV as it was. -/
def Obligations.ProfKeepsCountsOfAFailedSource : Prop :=
  ∀ (s : State) (src : List Byte) (rest : List Item),
    s.phase = .idle → s.err = false → s.fv = false → s.tv = false →
    s.inq = src.map .byte ++ .fail :: rest → s.total.toNat + src.length < 2 ^ 64 → src.length + 1 ≤ s.pace →
    exec .prof s = .next { s with
      curop := 0x10, incnt := BitVec.ofNat 64 src.length, outcnt := 0, inq := rest, err := true, errcode := 1, errsub := 1
      freq := Vector.ofFn fun b : Fin 256 =>
        entry s.freq (BitVec.ofNat 8 b.val) + BitVec.ofNat 64 (src.count (BitVec.ofNat 8 b.val))
      total := s.total + BitVec.ofNat 64 src.length
      rsps := s.rsps ++ [⟨1, 0⟩] }

/-- R271, R274 (b): the byte that would take TOTAL to 2^64 is popped and counted by INCNT, but raises OVERFLOW before FREQ or
TOTAL counts it. -/
def Obligations.ProfStopsBeforeTotalOverflows : Prop :=
  ∀ (s : State) (src : List Byte) (b : Byte) (rest : List Item),
    s.phase = .idle → s.err = false → s.fv = false → s.tv = false →
    s.inq = src.map .byte ++ .byte b :: rest → s.total.toNat + src.length + 1 = 2 ^ 64 → src.length + 1 ≤ s.pace →
    exec .prof s = .next { s with
      curop := 0x10, incnt := BitVec.ofNat 64 (src.length + 1), outcnt := 0, inq := rest, err := true, errcode := 5
      errsub := 0
      freq := Vector.ofFn fun b : Fin 256 =>
        entry s.freq (BitVec.ofNat 8 b.val) + BitVec.ofNat 64 (src.count (BitVec.ofNat 8 b.val))
      total := BitVec.allOnes 64
      rsps := s.rsps ++ [⟨1, 0⟩] }

/-- R121: LDF replaces one count, corrects TOTAL, sets FV, and changes nothing else (INCNT and OUTCNT among it); a symbol above
255, or a total of 2^64 or more, is rejected with REJ_RANGE; with ERR = 1 or TV = 1 it is rejected with REJ_SEQ. -/
def Obligations.LdfReplacesOneCount : Prop :=
  ∀ (s : State) (count : Data), s.phase = .idle →
    (∀ b : Byte, s.err = false → s.tv = false → (entry s.freq b).toNat ≤ s.total.toNat →
      s.total.toNat - (entry s.freq b).toNat + count.toNat < 2 ^ 64 →
      exec (.ldf (b.setWidth 16) count) s = .next { s with
        curop := 0x11, fv := true, freq := s.freq.set b.toNat count b.isLt
        total := BitVec.ofNat 64 (s.total.toNat - (entry s.freq b).toNat + count.toNat)
        rsps := s.rsps ++ [⟨0, 0⟩] }) ∧
    (∀ b : Byte, s.err = false → s.tv = false → (entry s.freq b).toNat ≤ s.total.toNat →
      2 ^ 64 ≤ s.total.toNat - (entry s.freq b).toNat + count.toNat →
      exec (.ldf (b.setWidth 16) count) s = .next { s with rsps := s.rsps ++ [⟨10, 0⟩] }) ∧
    (∀ sym : Idx, s.err = false → s.tv = false → 255 < sym.toNat →
      exec (.ldf sym count) s = .next { s with rsps := s.rsps ++ [⟨10, 0⟩] }) ∧
    (∀ sym : Idx, s.err = true ∨ s.tv = true →
      exec (.ldf sym count) s = .next { s with rsps := s.rsps ++ [⟨9, 0⟩] })

/-! ### TreeBuilder -/

/-- R144: BUILD on an all-zero table makes no tree. -/
def Obligations.BuildOfNoSymbolMakesNoTree : Prop :=
  ∀ (s : State), s.phase = .idle → s.err = false → s.fv = true → s.tv = false → s.freq = Vector.replicate 256 0 →
    exec .build s = .next { s with
      curop := 0x20, root := 511, nodes := [], nsym := 0, shape := 0, tv := true, rsps := s.rsps ++ [⟨0, 0⟩] }

/-- R145: BUILD with one distinct symbol makes the synthetic root with the Leaf as its left child and no right child. -/
def Obligations.BuildOfOneSymbolMakesASyntheticRoot : Prop :=
  ∀ (s : State) (b : Byte) (w : Data), s.phase = .idle → s.err = false → s.fv = true → s.tv = false → w ≠ 0 →
    s.freq = (Vector.replicate 256 0).set b.toNat w b.isLt →
    exec .build s = .next { s with
      curop := 0x20, root := 1, nodes := [.leaf b w, .internal w 0 511], nsym := 1, shape := 1, tv := true
      rsps := s.rsps ++ [⟨0, 0⟩] }

/-- R141, R143, R146, R147: BUILD with n >= 2 distinct symbols completes with 2n - 1 nodes, the root last, the leaves first in
ascending symbol order with their counts. Every Internal node comes after its two children and has their summed weight; of the
nodes not merged before it they are the two that come first by (weight, index), the first of the two on the left. So FREQ alone
fixes the tree. It is what the merges of R140 make, one node being left in PQ. Nothing changes but NODE, ROOT, NSYM, SHAPE, TV,
PQ and CUROP. -/
def Obligations.BuildCountsItsNodes : Prop :=
  ∀ (s : State), s.phase = .idle → s.err = false → s.fv = true → s.tv = false → 2 ≤ distinct s.freq →
    ∃ t, exec .build s = .next t ∧
      t = { s with
        curop := 0x20, nodes := t.nodes, root := BitVec.ofNat 9 (2 * distinct s.freq - 2)
        nsym := BitVec.ofNat 9 (distinct s.freq), shape := 2, tv := true, pq := [], rsps := s.rsps ++ [⟨0, 0⟩] } ∧
      t.nodes.length = 2 * distinct s.freq - 1 ∧
      t.nodes.take (distinct s.freq) =
        (symbols.filter fun b => entry s.freq b != 0).map (fun b => .leaf b (entry s.freq b)) ∧
      (∀ k, distinct s.freq ≤ k → k < 2 * distinct s.freq - 1 → ∃ (a b : NodeIdx) (na nb : Node),
        t.nodes[k]? = some (.internal (na.w + nb.w) a b) ∧
        t.nodes[a.toNat]? = some na ∧ t.nodes[b.toNat]? = some nb ∧
        unmerged t.nodes k a ∧ unmerged t.nodes k b ∧ before t.nodes a b ∧
        ∀ c, unmerged t.nodes k c → c = a ∨ c = b ∨ before t.nodes b c) ∧
      Forest.grown (makeLeaves s.freq) = ⟨t.nodes, [t.root]⟩

/-- R31 (a), (b), (c), (e): after BUILD the entries form one full tree, every entry in it once, one Leaf per symbol with a
nonzero count; and the root weighs TOTAL (R147) when TOTAL is the sum of the counts (R27). -/
def Obligations.BuildMakesOneFullTree : Prop :=
  ∀ (s t : State), s.fv = true → s.tv = false → 2 ≤ distinct s.freq → s.total.toNat = freqSum s.freq →
    exec .build s = .next t → t.tv = true →
    ∃ h : Tree, h.heldAt t.nodes t.root = true ∧
      (h.indices t.nodes t.root).Perm ((List.range t.nodes.length).map (BitVec.ofNat 9)) ∧
      (h.paths.map (·.1)).Perm (symbols.filter fun b => entry s.freq b != 0) ∧
      (nodeAt t.nodes t.root).map Node.w = some s.total

/-- R142: Insert puts x behind every element of weight less than or equal to its own and before every heavier one, and keeps
the order of the others. -/
def Obligations.InsertGoesBehindEqualWeights : Prop :=
  ∀ (nodes : List Node) (pq : List NodeIdx) (x : NodeIdx),
    pq.Pairwise (fun y z => weightAt nodes y ≤ weightAt nodes z) →
    ∃ front back, pq = front ++ back ∧ insertPq nodes pq x = front ++ x :: back ∧
      (∀ y ∈ front, weightAt nodes y ≤ weightAt nodes x) ∧ (∀ y ∈ back, weightAt nodes x < weightAt nodes y) ∧
      (insertPq nodes pq x).Pairwise (fun y z => weightAt nodes y ≤ weightAt nodes z)

/-- R140, R142, R143, R146: the leaves are inserted into PQ so that it holds each of them once, sorted by (weight, index); and
with PQ sorted so, a merge takes the two least in that order, the first as left child, and PQ stays sorted so. -/
def Obligations.MergeTakesTheTwoLeast : Prop :=
  (∀ leaves : List Node, leaves.length < Config.nodeCap →
    (Forest.ofLeaves leaves).nodes = leaves ∧
      (Forest.ofLeaves leaves).pq.Perm ((List.range leaves.length).map (BitVec.ofNat 9)) ∧
      (Forest.ofLeaves leaves).pq.Pairwise (before leaves)) ∧
  ∀ (f : Forest) (a b : NodeIdx) (rest : List NodeIdx),
    f.pq = a :: b :: rest → f.pq.Pairwise (before f.nodes) → (∀ i ∈ f.pq, i.toNat < f.nodes.length) →
    f.nodes.length < Config.nodeCap →
    f.merge.nodes = f.nodes ++ [.internal (weightAt f.nodes a + weightAt f.nodes b) a b] ∧
      before f.nodes a b ∧ (∀ y ∈ rest, before f.nodes a y ∧ before f.nodes b y) ∧
      f.merge.pq.Perm (BitVec.ofNat 9 f.nodes.length :: rest) ∧ f.merge.pq.Pairwise (before f.merge.nodes)

/-! ### CodeBookGenerator -/

/-- R160, R161, R162, R165: GEN on any tree of depth at most 255 gives every leaf's symbol its path (the last leaf's, where a
symbol is on several), the lone empty path as the bit 0, every other symbol no code; it sets BV and changes nothing else but
PATH and DEPTH, which it may leave at any value (R37; log entry 8, DESIGN CHOICE). That the bits beyond the last code's length
are 0 for a symbol on several leaves is R32 and log entry 9 (DEDUCED: R32 and R249 against the loop of R161). -/
def Obligations.GenAssignsThePaths : Prop :=
  ∀ (s : State) (h : Shaped), s.phase = .idle → s.err = false → s.tv = true → s.bv = false →
    h.heldAt s.nodes s.root = true → h.depth ≤ 255 →
    ∃ path depth draws, exec .gen s = .next { s with
      curop := 0x30, code := codeTable h.codes, bv := true, path := path, depth := depth, draws := draws
      rsps := s.rsps ++ [⟨0, 0⟩] }

/-- R33 (a), (b), (d), R164 (a): BUILD and then GEN give a prefix-free code book: exactly the symbols with a nonzero count have
a code, of length 1 to max(1, n - 1), and no code is a prefix of another. -/
def Obligations.CodeBookIsPrefixFree : Prop :=
  ∀ (s : State), s.phase = .idle → s.err = false → s.fv = true → s.tv = false → s.bv = false →
    ∃ t u, exec .build s = .next t ∧ exec .gen t = .next u ∧
      (∀ b : Byte, (entry u.code b).len ≠ 0 ↔ entry s.freq b ≠ 0) ∧
      (∀ b : Byte, (entry u.code b).len.toNat ≤ max 1 (distinct s.freq - 1)) ∧
      ∀ a b : Byte, a ≠ b → entry s.freq a ≠ 0 → entry s.freq b ≠ 0 →
        ¬ (entry u.code a).path <+: (entry u.code b).path

/-- R33 (c), R164 (b): Kraft equality, scaled by 2^255: 1 for two or more distinct symbols, 1/2 for one, 0 for none. -/
def Obligations.KraftEquality : Prop :=
  ∀ (s : State), s.phase = .idle → s.err = false → s.fv = true → s.tv = false → s.bv = false →
    ∃ t u, exec .build s = .next t ∧ exec .gen t = .next u ∧
      (symbols.map fun b => if (entry u.code b).len = 0 then 0 else 2 ^ (255 - (entry u.code b).len.toNat)).sum =
        if distinct s.freq = 0 then 0 else if distinct s.freq = 1 then 2 ^ 254 else 2 ^ 255

/-! ### TreeCodec -/

/-- R175, R176: TSER writes the tree's preorder bytes, pops nothing, and changes nothing else. -/
def Obligations.TserWritesTheTree : Prop :=
  ∀ (s : State) (h : Shaped), s.phase = .idle → s.err = false → s.tv = true → h.heldAt s.nodes s.root = true →
    sinkTakes h.bytes.length s = true → h.bytes.length ≤ s.pace →
    exec .tser s = .next { s with
      curop := 0x40, incnt := 0, outcnt := BitVec.ofNat 64 h.bytes.length, outq := s.outq ++ h.bytes
      sinkAnswers := s.sinkAnswers.drop h.bytes.length, rsps := s.rsps ++ [⟨0, 0⟩] }

/-- R177, R181: TDES on the bytes of a tree of at most 511 nodes pops exactly them, numbers the nodes in preorder with weight 0,
and writes ROOT, NNODES, NSYM, SHAPE and TV; nothing else changes. -/
def Obligations.TdesReadsTheTree : Prop :=
  ∀ (s : State) (h : Shaped) (rest : List Item), s.phase = .idle → s.err = false → s.fv = false → s.tv = false →
    h.size ≤ 511 → s.inq = h.bytes.map .byte ++ rest → h.bytes.length ≤ s.pace →
    exec (.tdes h.shape) s = .next { s with
      curop := 0x41, incnt := BitVec.ofNat 64 h.bytes.length, outcnt := 0, inq := rest, nodes := h.layout
      nsym := BitVec.ofNat 9 h.leafCount, root := h.root, shape := h.shape, tv := true, rsps := s.rsps ++ [⟨0, 0⟩] }

/-- R178, R274 (c): one micro-step of TDES at a tag: the tag's value is tested first (FORMAT 1, or FORMAT 4 at a shape-1
root), then the capacity (FORMAT 3); EOS is FORMAT 2; what is raised changes nothing but the error latch. -/
def Obligations.TdesErrorsInOrder : Prop :=
  ∀ (s : State) (rest : List Item), s.moves = [] →
    let raised := fun (code sub : BitVec 4) (incnt : Data) => (Host.Outcome.next { s with
      inq := rest, incnt := incnt, err := true, errcode := code, errsub := sub, phase := .idle
      rsps := s.rsps ++ [⟨1, 0⟩] } : Result)
    (∀ stack (t : Byte), s.phase = .desTag stack → s.inq = .byte t :: rest → t ≠ 0x00 → t ≠ 0x01 →
      step s = raised 2 1 (s.incnt + 1)) ∧
    (∀ stack (t : Byte), s.phase = .desTag stack → s.inq = .byte t :: rest → t = 0x00 ∨ t = 0x01 → s.nodes.length = 511 →
      step s = raised 2 3 (s.incnt + 1)) ∧
    (∀ t : Byte, s.phase = .desRoot → s.inq = .byte t :: rest → t ≠ 0x01 → step s = raised 2 4 (s.incnt + 1)) ∧
    ((∃ stack, s.phase = .desTag stack ∨ s.phase = .desSym stack) ∨ s.phase = .desRoot → s.inq = .eos :: rest →
      step s = raised 2 2 s.incnt)

/-- R180: what TSER writes for a tree, TDES with its shape reads back, popping exactly it, into a tree with the same symbols at
the same positions, for which GEN makes the same code table. -/
def Obligations.TreeSurvivesSerialization : Prop :=
  ∀ (s u : State) (h : Shaped) (rest : List Item) (t : State) (y : List Byte),
    s.phase = .idle → s.err = false → s.tv = true → s.bv = false → s.shape = h.shape → h.heldAt s.nodes s.root = true →
    h.size ≤ 511 → sinkTakes 1022 s = true → 1022 ≤ s.pace →
    exec .tser s = .next t → t.outq = s.outq ++ y →
    u.phase = .idle → u.err = false → u.fv = false → u.tv = false → u.bv = false →
    u.inq = y.map .byte ++ rest → 1022 ≤ u.pace →
    ∃ v, exec (.tdes s.shape) u = .next v ∧ v.inq = rest ∧ v.shape = s.shape ∧ h.heldAt v.nodes v.root = true ∧
      ∃ t' v', exec .gen t = .next t' ∧ exec .gen v = .next v' ∧ t'.code = v'.code

/-! ### BitStreamCodec -/

/-- R200 to R203, R208: ENC on a source of coded bytes ended by EOS writes their codes packed, most significant bit first, zero
padded, counts N bytes in and ceil(T/8) out, sets FIN, and changes nothing else. -/
def Obligations.EncPacksTheCodes : Prop :=
  ∀ (s : State) (src : List Byte) (rest : List Item), s.phase = .idle → s.err = false → s.bv = true → s.fin = false →
    s.inq = src.map .byte ++ .eos :: rest → (∀ b ∈ src, (entry s.code b).len ≠ 0) →
    sinkTakes (packed (codeBits s.code src)).length s = true →
    src.length + 1 + (packed (codeBits s.code src)).length ≤ s.pace →
    exec .enc s = .next { s with
      curop := 0x50, incnt := BitVec.ofNat 64 src.length
      outcnt := BitVec.ofNat 64 (((codeBits s.code src).length + 7) / 8), inq := rest
      outq := s.outq ++ packed (codeBits s.code src)
      sinkAnswers := s.sinkAnswers.drop (packed (codeBits s.code src)).length, acc := 0, nacc := 0, fin := true
      rsps := s.rsps ++ [⟨0, 0⟩] }

/-- R201, R270, R274 (d): a byte without a code raises NOCODE before any of its bits is put: the full groups of the bytes
before it have been delivered, nothing else changed (but ACC and NACC, which keep what they held). -/
def Obligations.EncRefusesAByteWithoutACode : Prop :=
  ∀ (s : State) (src : List Byte) (b : Byte) (rest : List Item),
    s.phase = .idle → s.err = false → s.bv = true → s.fin = false →
    s.inq = src.map .byte ++ .byte b :: rest → (∀ x ∈ src, (entry s.code x).len ≠ 0) → (entry s.code b).len = 0 →
    sinkTakes ((codeBits s.code src).length / 8) s = true → src.length + 1 + (codeBits s.code src).length / 8 ≤ s.pace →
    ∃ acc nacc, exec .enc s = .next { s with
      curop := 0x50, incnt := BitVec.ofNat 64 (src.length + 1)
      outcnt := BitVec.ofNat 64 ((codeBits s.code src).length / 8), inq := rest
      outq := s.outq ++ (packed (codeBits s.code src)).take ((codeBits s.code src).length / 8)
      sinkAnswers := s.sinkAnswers.drop ((codeBits s.code src).length / 8), acc := acc, nacc := nacc
      err := true, errcode := 4, errsub := 0, rsps := s.rsps ++ [⟨1, 0⟩] }

/-- R204 to R207: DEC of a payload whose first bits are the codes of `syms` under the tree, with their number expected, writes
their symbols, pops exactly the bytes that hold those bits, sets FIN, and changes nothing else but its own hidden registers. -/
def Obligations.DecWalksTheTree : Prop :=
  ∀ (s : State) (h : Shaped) (syms : List (Byte × List Bool)) (payload : List Byte) (rest : List Item),
    s.phase = .idle → s.err = false → s.tv = true → s.fin = false → h.heldAt s.nodes s.root = true →
    (∀ x ∈ syms, x ∈ h.codes) → syms.length < 2 ^ 64 →
    (payloadBits payload).take (syms.flatMap (·.2)).length = syms.flatMap (·.2) →
    payload.length = ((syms.flatMap (·.2)).length + 7) / 8 → s.inq = payload.map .byte ++ rest →
    sinkTakes syms.length s = true → syms.length + payload.length ≤ s.pace →
    ∃ dbyte dbits cur, exec (.dec (BitVec.ofNat 64 syms.length)) s = .next { s with
      curop := 0x51, incnt := BitVec.ofNat 64 payload.length, outcnt := BitVec.ofNat 64 syms.length
      expected := BitVec.ofNat 64 syms.length, decoded := BitVec.ofNat 64 syms.length, inq := rest
      outq := s.outq ++ syms.map (·.1), sinkAnswers := s.sinkAnswers.drop syms.length, fin := true
      dbyte := dbyte, dbits := dbits, cur := cur, rsps := s.rsps ++ [⟨0, 0⟩] }

/-- R204 (a), R207: DEC with 0 expected completes at once whatever the tree: nothing is popped, nothing written. -/
def Obligations.DecOfNothingCompletes : Prop :=
  ∀ (s : State), s.phase = .idle → s.err = false → s.tv = true → s.fin = false →
    exec (.dec 0) s = .next { s with
      curop := 0x51, incnt := 0, outcnt := 0, expected := 0, decoded := 0, dbyte := 0, dbits := 0, cur := 511, fin := true
      rsps := s.rsps ++ [⟨0, 0⟩] }

/-- R206, R266: with no tree and a symbol expected DEC raises CORRUPT sub 3 before anything is popped. -/
def Obligations.DecWithoutATreeIsCorrupt : Prop :=
  ∀ (s : State) (n : Data), s.phase = .idle → s.err = false → s.tv = true → s.fin = false → s.root = 511 → n ≠ 0 →
    exec (.dec n) s = .next { s with
      curop := 0x51, incnt := 0, outcnt := 0, expected := n, decoded := 0, dbyte := 0, dbits := 0, cur := 511
      err := true, errcode := 3, errsub := 3, rsps := s.rsps ++ [⟨1, 0⟩] }

/-- R206, R274 (e): a bit with no child on the indicated side raises CORRUPT sub 1, wherever in the payload it stands, and no
symbol is delivered after it. A whole run: DEC of a payload whose bits are the codes of `syms` (possibly none) and then a 1,
under a right-absent root or a root that is a Leaf, with more symbols expected, delivers exactly `syms`. And the two micro-steps
in which the walk can meet such a bit at the node it stands at, or at the root, in any state: the first bit of a byte just
popped, and the next bit left in DBYTE after a symbol was delivered. -/
def Obligations.DecOfAMissingChildIsCorrupt : Prop :=
  (∀ (s : State) (h : Shaped) (syms : List (Byte × List Bool)) (payload : List Byte) (n : Data) (rest : List Item),
    s.phase = .idle → s.err = false → s.tv = true → s.fin = false → h.heldAt s.nodes s.root = true →
    s.root ≠ 511 → noChild s.nodes s.root true = true → (∀ x ∈ syms, x ∈ h.codes) → syms.length < n.toNat →
    (payloadBits payload).take ((syms.flatMap (·.2)).length + 1) = syms.flatMap (·.2) ++ [true] →
    payload.length = ((syms.flatMap (·.2)).length + 8) / 8 → s.inq = payload.map .byte ++ rest →
    sinkTakes syms.length s = true → syms.length + payload.length ≤ s.pace →
    ∃ dbyte dbits, exec (.dec n) s = .next { s with
      curop := 0x51, incnt := BitVec.ofNat 64 payload.length, outcnt := BitVec.ofNat 64 syms.length, expected := n
      decoded := BitVec.ofNat 64 syms.length, inq := rest, outq := s.outq ++ syms.map (·.1)
      sinkAnswers := s.sinkAnswers.drop syms.length, dbyte := dbyte, dbits := dbits, cur := s.root
      err := true, errcode := 3, errsub := 1, rsps := s.rsps ++ [⟨1, 0⟩] }) ∧
  (∀ (s : State) (b : Byte) (rest : List Item),
    s.moves = [] → s.phase = .decPop → s.inq = .byte b :: rest → noChild s.nodes s.cur (b.getLsbD 7) = true →
    step s = .next { s with
      inq := rest, incnt := s.incnt + 1, dbyte := b <<< 1, dbits := 7
      err := true, errcode := 3, errsub := 1, phase := .idle, rsps := s.rsps ++ [⟨1, 0⟩] }) ∧
  (∀ (s : State) (sym : Byte),
    s.moves = [] → s.phase = .decPush sym → sinkTakes 1 s = true → s.decoded + 1 < s.expected → s.root ≠ 511 →
    s.dbits ≠ 0 → noChild s.nodes s.root (s.dbyte.getLsbD 7) = true →
    step s = .next { s with
      outq := s.outq ++ [sym], outcnt := s.outcnt + 1, sinkAnswers := s.sinkAnswers.tail, decoded := s.decoded + 1
      dbyte := s.dbyte <<< 1, dbits := s.dbits - 1, cur := s.root
      err := true, errcode := 3, errsub := 1, phase := .idle, rsps := s.rsps ++ [⟨1, 0⟩] })

/-- R205: whenever a bit is needed, none is left in DBYTE and EOS is popped, CORRUPT sub 2 is raised and nothing else changes. -/
def Obligations.DecOfAnExhaustedPayloadIsCorrupt : Prop :=
  ∀ (s : State) (rest : List Item), s.moves = [] → s.phase = .decPop → s.inq = .eos :: rest →
    step s = .next { s with
      inq := rest, err := true, errcode := 3, errsub := 2, phase := .idle, rsps := s.rsps ++ [⟨1, 0⟩] }

/-- R210: a payload that lacks its last byte raises CORRUPT sub 2, with only a proper prefix of the symbols delivered and
counted; never a short output without an error. -/
def Obligations.DecOfATruncatedPayloadIsCorrupt : Prop :=
  ∀ (s : State) (h : Shaped) (syms : List (Byte × List Bool)) (rest : List Item),
    s.phase = .idle → s.err = false → s.tv = true → s.fin = false → h.heldAt s.nodes s.root = true →
    (∀ x ∈ syms, x ∈ h.codes) → syms ≠ [] → syms.length < 2 ^ 64 →
    s.inq = (packed (syms.flatMap (·.2))).dropLast.map .byte ++ .eos :: rest →
    sinkTakes syms.length s = true → syms.length + (packed (syms.flatMap (·.2))).length ≤ s.pace →
    ∃ k dbyte dbits cur, k < syms.length ∧ exec (.dec (BitVec.ofNat 64 syms.length)) s = .next { s with
      curop := 0x51, incnt := BitVec.ofNat 64 ((packed (syms.flatMap (·.2))).length - 1), outcnt := BitVec.ofNat 64 k
      expected := BitVec.ofNat 64 syms.length, decoded := BitVec.ofNat 64 k, inq := rest
      outq := s.outq ++ (syms.take k).map (·.1), sinkAnswers := s.sinkAnswers.drop k
      dbyte := dbyte, dbits := dbits, cur := cur, err := true, errcode := 3, errsub := 2, rsps := s.rsps ++ [⟨1, 0⟩] }

/-- R209: for every source, COMPRESS from any idle state; and then each of the three ways back, from the state it leaves with its
output taken: DECOMPRESS with the shape and the total it left, on all it wrote (the serialized tree and the payload); DEC
directly after a BUILD from the source, on the payload; DECOMPRESS_F with the frequencies and the total it left, on the payload.
Each gives the source back, with no error. -/
def Obligations.DecodeOfEncodeIsTheSource : Prop :=
  ∀ (s : State) (src : List Byte),
    s.phase = .idle → s.inq = [] → s.outq = [] → s.sinkAnswers = [] → s.sinkThen = some .ok → src.length < 2 ^ 64 →
    64 * src.length + 2048 ≤ s.pace →
    ∃ t, Host.Core.run Sys2Proof.core (compress src).length { s with moves := compress src } = .next t ∧
      t.err = false ∧ t.fin = true ∧ t.total = BitVec.ofNat 64 src.length ∧ t.inq = [] ∧
      let payload := t.outq.drop (t.nodes.length + t.nsym.toNat)
      ∀ script ∈ [decompress t.shape t.total t.outq, decodeAfterBuild src t.total payload, decompressF t.freq t.total payload],
        ∃ u, Host.Core.run Sys2Proof.core script.length { t with outq := [], moves := script } = .next u ∧
          u.err = false ∧ u.fin = true ∧ u.outq = src

/-! ### Streams and errors -/

/-- R67, R267, R275: a FAIL item raises Err(IO, 1) in every command that pops, and changes nothing else. -/
def Obligations.SourceFailureRaisesIo1 : Prop :=
  ∀ (s : State) (rest : List Item), s.moves = [] → s.inq = .fail :: rest →
    (s.phase ∈ [.profPop, .desRoot, .encPop, .decPop] ∨ ∃ stack, s.phase = .desTag stack ∨ s.phase = .desSym stack) →
    step s = .next { s with
      inq := rest, err := true, errcode := 1, errsub := 1, phase := .idle, rsps := s.rsps ++ [⟨1, 0⟩] }

/-- R68, R267, R275: a fail answer raises Err(IO, 2) in every command that pushes; the byte is not delivered, DECODED and OUTCNT
do not count it, and nothing else changes. That ENC, when the push of a full group fails, keeps seven bits in ACC and NACC at 7
is log entry 10 (DEDUCED), the model's choice. -/
def Obligations.SinkFailureRaisesIo2 : Prop :=
  ∀ (s : State), s.moves = [] →
    (∃ answers, s.sinkAnswers = .fail :: answers) ∨ s.sinkAnswers = [] ∧ s.sinkThen = some .fail →
    (∃ b rest, s.phase = .serPush (.sym b :: rest)) ∨
      (∃ i n rest, s.phase = .serPush (.node i :: rest) ∧ nodeAt s.nodes i = some n) ∨
      (∃ v rest, s.phase = .encPush v rest) ∨ s.phase = .encFlush ∨ (∃ b, s.phase = .decPush b) →
    step s = .next { s with
      sinkAnswers := s.sinkAnswers.tail, err := true, errcode := 1, errsub := 2, phase := .idle
      rsps := s.rsps ++ [⟨1, 0⟩] }

/-- R74: a core waiting in InPop or OutPush changes no state. -/
def Obligations.WaitingChangesNothing : Prop :=
  ∀ (s : State), s.moves = [] →
    (s.inq = [] ∧ (s.phase ∈ [.profPop, .desRoot, .encPop, .decPop] ∨
      ∃ stack, s.phase = .desTag stack ∨ s.phase = .desSym stack)) ∨
    (s.sinkAnswers = [] ∧ s.sinkThen = none ∧
      ((∃ b rest, s.phase = .serPush (.sym b :: rest)) ∨
        (∃ i n rest, s.phase = .serPush (.node i :: rest) ∧ nodeAt s.nodes i = some n) ∨
        (∃ v rest, s.phase = .encPush v rest) ∨ s.phase = .encFlush ∨ (∃ b, s.phase = .decPush b))) →
    step s = .next s

/-- R275: a step that latches an error ends the command (BUSY = 0), answers RESP 1 with RDATA 0, latches a pair of R266, and
leaves FV, TV, BV, FIN, SHAPE and, unless the step accepted the command, CUROP as they were. -/
def Obligations.ErrorEntryIsPrecise : Prop :=
  ∀ (s t : State), step s = .next t → s.err = false → t.err = true →
    t.phase = .idle ∧ t.rsps = s.rsps ++ [⟨1, 0⟩] ∧ (t.errcode, t.errsub) ∈ errorPairs ∧
      t.fv = s.fv ∧ t.tv = s.tv ∧ t.bv = s.bv ∧ t.fin = s.fin ∧ t.shape = s.shape ∧
      (s.phase ≠ .idle → t.curop = s.curop)

/-- R25, R276: a latched error keeps its cause until CLR or reset. -/
def Obligations.ErrorStaysLatched : Prop :=
  ∀ (s t : State), step s = .next t → s.phase = .idle → s.err = true → startsOperation s = false →
    t.err = true ∧ t.errcode = s.errcode ∧ t.errsub = s.errsub ∧ t.phase = .idle

/-- R23: the validity flags only rise, but by CLR or reset. -/
def Obligations.ValidityFlagsOnlyRise : Prop :=
  ∀ (s t : State), step s = .next t → startsOperation s = false →
    (s.fv = true → t.fv = true) ∧ (s.tv = true → t.tv = true) ∧ (s.bv = true → t.bv = true) ∧ (s.fin = true → t.fin = true)

/-- R73: once TV = 1 neither FREQ nor NODE nor ROOT is written again, once BV = 1 CODE is not, but by CLR or reset. -/
def Obligations.TablesAreFrozenOnceUsed : Prop :=
  ∀ (s t : State), Inv s → step s = .next t → startsOperation s = false →
    (s.tv = true → t.freq = s.freq ∧ t.nodes = s.nodes ∧ t.root = s.root ∧ t.shape = s.shape) ∧
    (s.bv = true → t.code = s.code)

/-- R70 (b), (c): a step that is no push takes items from the head of INQ only, in order; a step that is no take adds bytes at
the tail of OUTQ only. -/
def Obligations.StreamsKeepTheirOrder : Prop :=
  ∀ (s t : State), step s = .next t →
    ((∀ it rest, s.moves ≠ .push it :: rest) → t.inq <:+ s.inq) ∧
    ((∀ rest, s.moves ≠ .take :: rest) → s.outq <+: t.outq)

/-- R92, R93, R273: a step gives at most one response, of a listed code; RDATA is 0 unless RESP is 0; and a rejection (RESP 8
or above) changed nothing but the response channel and the host's script. -/
def Obligations.ResponsesAreTheListedOnes : Prop :=
  ∀ (s t : State), step s = .next t →
    t.rsps = s.rsps ∨ ∃ r : Response, t.rsps = s.rsps ++ [r] ∧ r.resp ∈ [0#4, 1#4, 8#4, 9#4, 10#4, 11#4] ∧
      (r.resp ≠ 0 → r.rdata = 0) ∧
      (8 ≤ r.resp.toNat → t = { s with moves := s.moves.tail, rsps := s.rsps ++ [r] })

/-- R10: where the host's moves fall between the core's micro-steps makes no difference to what the core does: a command issued
with leave for a + b micro-steps is the command issued with leave for a, and then up to b more. (The pace is the model's own,
log entry 3.) -/
def Obligations.PaceOnlySplitsTheRun : Prop :=
  ∀ (s t : State) (i : Instr) (a b : Nat), s.phase = .idle → exec i { s with pace := a } = .next t →
    exec i { s with pace := a + b } = runMicro b { t with pace := a + b }

/-! ### Invariants -/

/-- Every step keeps the invariant: TOTAL is the sum of FREQ (R27), the NODE table stays within 511 entries, the flags agree
(R21 to R25, R97), codes are left-justified (R32), PQ is empty (R34), ACC holds no bit at or above NACC (R35), DBITS stays in range (R36). That ENC
waits to push a full group at NACC = 7 is log entry 10 (DEDUCED). -/
def Obligations.EveryStepKeepsTheInvariant : Prop :=
  ∀ s t : State, Inv s → step s = .next t → Inv t

/-- The invariant holds after reset. -/
def Obligations.ResetMeetsTheInvariant : Prop := Inv State.reset

/-- R31, R211, R163: on every run, under any host, whenever TV = 1 the NODE entries form one tree of the shape SHAPE says, every
entry in it once; and no step ever stops: no command follows an index that names no entry, and PATH never overflows. -/
def Obligations.NoRunLosesTheTree : Prop :=
  ∀ s : State, Reachable s → (s.tv = true → TableHoldsOneTree s) ∧ ∃ t, step s = .next t
end

