-- ==== Sys2Proof/Laws/State.lean ====
section
/-! SUPPORT. One lemma per field per named update of State, each true by rfl, so that no later proof unfolds a record update
(generated from the fields of Machine/State.lean). -/

namespace Sys2Proof.Machine

section Respond
variable (s : State) (r : BitVec 4) (v : Data)

@[simp] theorem State.respond_fv : (s.respond r v).fv = s.fv := rfl
@[simp] theorem State.respond_tv : (s.respond r v).tv = s.tv := rfl
@[simp] theorem State.respond_bv : (s.respond r v).bv = s.bv := rfl
@[simp] theorem State.respond_fin : (s.respond r v).fin = s.fin := rfl
@[simp] theorem State.respond_err : (s.respond r v).err = s.err := rfl
@[simp] theorem State.respond_shape : (s.respond r v).shape = s.shape := rfl
@[simp] theorem State.respond_errcode : (s.respond r v).errcode = s.errcode := rfl
@[simp] theorem State.respond_errsub : (s.respond r v).errsub = s.errsub := rfl
@[simp] theorem State.respond_curop : (s.respond r v).curop = s.curop := rfl
@[simp] theorem State.respond_total : (s.respond r v).total = s.total := rfl
@[simp] theorem State.respond_expected : (s.respond r v).expected = s.expected := rfl
@[simp] theorem State.respond_decoded : (s.respond r v).decoded = s.decoded := rfl
@[simp] theorem State.respond_incnt : (s.respond r v).incnt = s.incnt := rfl
@[simp] theorem State.respond_outcnt : (s.respond r v).outcnt = s.outcnt := rfl
@[simp] theorem State.respond_root : (s.respond r v).root = s.root := rfl
@[simp] theorem State.respond_nsym : (s.respond r v).nsym = s.nsym := rfl
@[simp] theorem State.respond_freq : (s.respond r v).freq = s.freq := rfl
@[simp] theorem State.respond_nodes : (s.respond r v).nodes = s.nodes := rfl
@[simp] theorem State.respond_code : (s.respond r v).code = s.code := rfl
@[simp] theorem State.respond_pq : (s.respond r v).pq = s.pq := rfl
@[simp] theorem State.respond_acc : (s.respond r v).acc = s.acc := rfl
@[simp] theorem State.respond_nacc : (s.respond r v).nacc = s.nacc := rfl
@[simp] theorem State.respond_dbyte : (s.respond r v).dbyte = s.dbyte := rfl
@[simp] theorem State.respond_dbits : (s.respond r v).dbits = s.dbits := rfl
@[simp] theorem State.respond_cur : (s.respond r v).cur = s.cur := rfl
@[simp] theorem State.respond_path : (s.respond r v).path = s.path := rfl
@[simp] theorem State.respond_depth : (s.respond r v).depth = s.depth := rfl
@[simp] theorem State.respond_phase : (s.respond r v).phase = s.phase := rfl
@[simp] theorem State.respond_inq : (s.respond r v).inq = s.inq := rfl
@[simp] theorem State.respond_outq : (s.respond r v).outq = s.outq := rfl
@[simp] theorem State.respond_rsps : (s.respond r v).rsps = s.rsps ++ [⟨r, v⟩] := rfl
@[simp] theorem State.respond_moves : (s.respond r v).moves = s.moves := rfl
@[simp] theorem State.respond_sinkAnswers : (s.respond r v).sinkAnswers = s.sinkAnswers := rfl
@[simp] theorem State.respond_sinkThen : (s.respond r v).sinkThen = s.sinkThen := rfl
@[simp] theorem State.respond_pace : (s.respond r v).pace = s.pace := rfl
@[simp] theorem State.respond_draws : (s.respond r v).draws = s.draws := rfl
end Respond

section Finish
variable (s : State)

@[simp] theorem State.finish_fv : (s.finish).fv = s.fv := rfl
@[simp] theorem State.finish_tv : (s.finish).tv = s.tv := rfl
@[simp] theorem State.finish_bv : (s.finish).bv = s.bv := rfl
@[simp] theorem State.finish_fin : (s.finish).fin = s.fin := rfl
@[simp] theorem State.finish_err : (s.finish).err = s.err := rfl
@[simp] theorem State.finish_shape : (s.finish).shape = s.shape := rfl
@[simp] theorem State.finish_errcode : (s.finish).errcode = s.errcode := rfl
@[simp] theorem State.finish_errsub : (s.finish).errsub = s.errsub := rfl
@[simp] theorem State.finish_curop : (s.finish).curop = s.curop := rfl
@[simp] theorem State.finish_total : (s.finish).total = s.total := rfl
@[simp] theorem State.finish_expected : (s.finish).expected = s.expected := rfl
@[simp] theorem State.finish_decoded : (s.finish).decoded = s.decoded := rfl
@[simp] theorem State.finish_incnt : (s.finish).incnt = s.incnt := rfl
@[simp] theorem State.finish_outcnt : (s.finish).outcnt = s.outcnt := rfl
@[simp] theorem State.finish_root : (s.finish).root = s.root := rfl
@[simp] theorem State.finish_nsym : (s.finish).nsym = s.nsym := rfl
@[simp] theorem State.finish_freq : (s.finish).freq = s.freq := rfl
@[simp] theorem State.finish_nodes : (s.finish).nodes = s.nodes := rfl
@[simp] theorem State.finish_code : (s.finish).code = s.code := rfl
@[simp] theorem State.finish_pq : (s.finish).pq = s.pq := rfl
@[simp] theorem State.finish_acc : (s.finish).acc = s.acc := rfl
@[simp] theorem State.finish_nacc : (s.finish).nacc = s.nacc := rfl
@[simp] theorem State.finish_dbyte : (s.finish).dbyte = s.dbyte := rfl
@[simp] theorem State.finish_dbits : (s.finish).dbits = s.dbits := rfl
@[simp] theorem State.finish_cur : (s.finish).cur = s.cur := rfl
@[simp] theorem State.finish_path : (s.finish).path = s.path := rfl
@[simp] theorem State.finish_depth : (s.finish).depth = s.depth := rfl
@[simp] theorem State.finish_phase : (s.finish).phase = .idle := rfl
@[simp] theorem State.finish_inq : (s.finish).inq = s.inq := rfl
@[simp] theorem State.finish_outq : (s.finish).outq = s.outq := rfl
@[simp] theorem State.finish_rsps : (s.finish).rsps = s.rsps ++ [⟨respOk, 0⟩] := rfl
@[simp] theorem State.finish_moves : (s.finish).moves = s.moves := rfl
@[simp] theorem State.finish_sinkAnswers : (s.finish).sinkAnswers = s.sinkAnswers := rfl
@[simp] theorem State.finish_sinkThen : (s.finish).sinkThen = s.sinkThen := rfl
@[simp] theorem State.finish_pace : (s.finish).pace = s.pace := rfl
@[simp] theorem State.finish_draws : (s.finish).draws = s.draws := rfl
end Finish

section Raise
variable (s : State) (e : Err)

@[simp] theorem State.raise_fv : (s.raise e).fv = s.fv := rfl
@[simp] theorem State.raise_tv : (s.raise e).tv = s.tv := rfl
@[simp] theorem State.raise_bv : (s.raise e).bv = s.bv := rfl
@[simp] theorem State.raise_fin : (s.raise e).fin = s.fin := rfl
@[simp] theorem State.raise_err : (s.raise e).err = true := rfl
@[simp] theorem State.raise_shape : (s.raise e).shape = s.shape := rfl
@[simp] theorem State.raise_errcode : (s.raise e).errcode = e.code := rfl
@[simp] theorem State.raise_errsub : (s.raise e).errsub = e.sub := rfl
@[simp] theorem State.raise_curop : (s.raise e).curop = s.curop := rfl
@[simp] theorem State.raise_total : (s.raise e).total = s.total := rfl
@[simp] theorem State.raise_expected : (s.raise e).expected = s.expected := rfl
@[simp] theorem State.raise_decoded : (s.raise e).decoded = s.decoded := rfl
@[simp] theorem State.raise_incnt : (s.raise e).incnt = s.incnt := rfl
@[simp] theorem State.raise_outcnt : (s.raise e).outcnt = s.outcnt := rfl
@[simp] theorem State.raise_root : (s.raise e).root = s.root := rfl
@[simp] theorem State.raise_nsym : (s.raise e).nsym = s.nsym := rfl
@[simp] theorem State.raise_freq : (s.raise e).freq = s.freq := rfl
@[simp] theorem State.raise_nodes : (s.raise e).nodes = s.nodes := rfl
@[simp] theorem State.raise_code : (s.raise e).code = s.code := rfl
@[simp] theorem State.raise_pq : (s.raise e).pq = s.pq := rfl
@[simp] theorem State.raise_acc : (s.raise e).acc = s.acc := rfl
@[simp] theorem State.raise_nacc : (s.raise e).nacc = s.nacc := rfl
@[simp] theorem State.raise_dbyte : (s.raise e).dbyte = s.dbyte := rfl
@[simp] theorem State.raise_dbits : (s.raise e).dbits = s.dbits := rfl
@[simp] theorem State.raise_cur : (s.raise e).cur = s.cur := rfl
@[simp] theorem State.raise_path : (s.raise e).path = s.path := rfl
@[simp] theorem State.raise_depth : (s.raise e).depth = s.depth := rfl
@[simp] theorem State.raise_phase : (s.raise e).phase = .idle := rfl
@[simp] theorem State.raise_inq : (s.raise e).inq = s.inq := rfl
@[simp] theorem State.raise_outq : (s.raise e).outq = s.outq := rfl
@[simp] theorem State.raise_rsps : (s.raise e).rsps = s.rsps ++ [⟨respErr, 0⟩] := rfl
@[simp] theorem State.raise_moves : (s.raise e).moves = s.moves := rfl
@[simp] theorem State.raise_sinkAnswers : (s.raise e).sinkAnswers = s.sinkAnswers := rfl
@[simp] theorem State.raise_sinkThen : (s.raise e).sinkThen = s.sinkThen := rfl
@[simp] theorem State.raise_pace : (s.raise e).pace = s.pace := rfl
@[simp] theorem State.raise_draws : (s.raise e).draws = s.draws := rfl
end Raise

section Accept
variable (s : State) (i : Instr)

@[simp] theorem State.accept_fv : (s.accept i).fv = s.fv := rfl
@[simp] theorem State.accept_tv : (s.accept i).tv = s.tv := rfl
@[simp] theorem State.accept_bv : (s.accept i).bv = s.bv := rfl
@[simp] theorem State.accept_fin : (s.accept i).fin = s.fin := rfl
@[simp] theorem State.accept_err : (s.accept i).err = s.err := rfl
@[simp] theorem State.accept_shape : (s.accept i).shape = s.shape := rfl
@[simp] theorem State.accept_errcode : (s.accept i).errcode = s.errcode := rfl
@[simp] theorem State.accept_errsub : (s.accept i).errsub = s.errsub := rfl
@[simp] theorem State.accept_curop : (s.accept i).curop = if isRead i then s.curop else i.opcode := rfl
@[simp] theorem State.accept_total : (s.accept i).total = s.total := rfl
@[simp] theorem State.accept_expected : (s.accept i).expected = s.expected := rfl
@[simp] theorem State.accept_decoded : (s.accept i).decoded = s.decoded := rfl
@[simp] theorem State.accept_incnt : (s.accept i).incnt = if isStreaming i then 0 else s.incnt := rfl
@[simp] theorem State.accept_outcnt : (s.accept i).outcnt = if isStreaming i then 0 else s.outcnt := rfl
@[simp] theorem State.accept_root : (s.accept i).root = s.root := rfl
@[simp] theorem State.accept_nsym : (s.accept i).nsym = s.nsym := rfl
@[simp] theorem State.accept_freq : (s.accept i).freq = s.freq := rfl
@[simp] theorem State.accept_nodes : (s.accept i).nodes = s.nodes := rfl
@[simp] theorem State.accept_code : (s.accept i).code = s.code := rfl
@[simp] theorem State.accept_pq : (s.accept i).pq = s.pq := rfl
@[simp] theorem State.accept_acc : (s.accept i).acc = s.acc := rfl
@[simp] theorem State.accept_nacc : (s.accept i).nacc = s.nacc := rfl
@[simp] theorem State.accept_dbyte : (s.accept i).dbyte = s.dbyte := rfl
@[simp] theorem State.accept_dbits : (s.accept i).dbits = s.dbits := rfl
@[simp] theorem State.accept_cur : (s.accept i).cur = s.cur := rfl
@[simp] theorem State.accept_path : (s.accept i).path = s.path := rfl
@[simp] theorem State.accept_depth : (s.accept i).depth = s.depth := rfl
@[simp] theorem State.accept_phase : (s.accept i).phase = s.phase := rfl
@[simp] theorem State.accept_inq : (s.accept i).inq = s.inq := rfl
@[simp] theorem State.accept_outq : (s.accept i).outq = s.outq := rfl
@[simp] theorem State.accept_rsps : (s.accept i).rsps = s.rsps := rfl
@[simp] theorem State.accept_moves : (s.accept i).moves = s.moves := rfl
@[simp] theorem State.accept_sinkAnswers : (s.accept i).sinkAnswers = s.sinkAnswers := rfl
@[simp] theorem State.accept_sinkThen : (s.accept i).sinkThen = s.sinkThen := rfl
@[simp] theorem State.accept_pace : (s.accept i).pace = s.pace := rfl
@[simp] theorem State.accept_draws : (s.accept i).draws = s.draws := rfl
end Accept

section Popped
variable (s : State) (it : Item) (rest : List Item)

@[simp] theorem State.popped_fv : (s.popped it rest).fv = s.fv := rfl
@[simp] theorem State.popped_tv : (s.popped it rest).tv = s.tv := rfl
@[simp] theorem State.popped_bv : (s.popped it rest).bv = s.bv := rfl
@[simp] theorem State.popped_fin : (s.popped it rest).fin = s.fin := rfl
@[simp] theorem State.popped_err : (s.popped it rest).err = s.err := rfl
@[simp] theorem State.popped_shape : (s.popped it rest).shape = s.shape := rfl
@[simp] theorem State.popped_errcode : (s.popped it rest).errcode = s.errcode := rfl
@[simp] theorem State.popped_errsub : (s.popped it rest).errsub = s.errsub := rfl
@[simp] theorem State.popped_curop : (s.popped it rest).curop = s.curop := rfl
@[simp] theorem State.popped_total : (s.popped it rest).total = s.total := rfl
@[simp] theorem State.popped_expected : (s.popped it rest).expected = s.expected := rfl
@[simp] theorem State.popped_decoded : (s.popped it rest).decoded = s.decoded := rfl
@[simp] theorem State.popped_outcnt : (s.popped it rest).outcnt = s.outcnt := rfl
@[simp] theorem State.popped_root : (s.popped it rest).root = s.root := rfl
@[simp] theorem State.popped_nsym : (s.popped it rest).nsym = s.nsym := rfl
@[simp] theorem State.popped_freq : (s.popped it rest).freq = s.freq := rfl
@[simp] theorem State.popped_nodes : (s.popped it rest).nodes = s.nodes := rfl
@[simp] theorem State.popped_code : (s.popped it rest).code = s.code := rfl
@[simp] theorem State.popped_pq : (s.popped it rest).pq = s.pq := rfl
@[simp] theorem State.popped_acc : (s.popped it rest).acc = s.acc := rfl
@[simp] theorem State.popped_nacc : (s.popped it rest).nacc = s.nacc := rfl
@[simp] theorem State.popped_dbyte : (s.popped it rest).dbyte = s.dbyte := rfl
@[simp] theorem State.popped_dbits : (s.popped it rest).dbits = s.dbits := rfl
@[simp] theorem State.popped_cur : (s.popped it rest).cur = s.cur := rfl
@[simp] theorem State.popped_path : (s.popped it rest).path = s.path := rfl
@[simp] theorem State.popped_depth : (s.popped it rest).depth = s.depth := rfl
@[simp] theorem State.popped_phase : (s.popped it rest).phase = s.phase := rfl
@[simp] theorem State.popped_inq : (s.popped it rest).inq = rest := rfl
@[simp] theorem State.popped_outq : (s.popped it rest).outq = s.outq := rfl
@[simp] theorem State.popped_rsps : (s.popped it rest).rsps = s.rsps := rfl
@[simp] theorem State.popped_moves : (s.popped it rest).moves = s.moves := rfl
@[simp] theorem State.popped_sinkAnswers : (s.popped it rest).sinkAnswers = s.sinkAnswers := rfl
@[simp] theorem State.popped_sinkThen : (s.popped it rest).sinkThen = s.sinkThen := rfl
@[simp] theorem State.popped_pace : (s.popped it rest).pace = s.pace := rfl
@[simp] theorem State.popped_draws : (s.popped it rest).draws = s.draws := rfl
@[simp] theorem State.popped_byte_incnt (b : Byte) : (s.popped (.byte b) rest).incnt = s.incnt + 1 := rfl
@[simp] theorem State.popped_eos_incnt : (s.popped .eos rest).incnt = s.incnt := rfl
@[simp] theorem State.popped_fail_incnt : (s.popped .fail rest).incnt = s.incnt := rfl
end Popped

section Answered
variable (s : State)

@[simp] theorem State.answered_fv : (s.answered).fv = s.fv := rfl
@[simp] theorem State.answered_tv : (s.answered).tv = s.tv := rfl
@[simp] theorem State.answered_bv : (s.answered).bv = s.bv := rfl
@[simp] theorem State.answered_fin : (s.answered).fin = s.fin := rfl
@[simp] theorem State.answered_err : (s.answered).err = s.err := rfl
@[simp] theorem State.answered_shape : (s.answered).shape = s.shape := rfl
@[simp] theorem State.answered_errcode : (s.answered).errcode = s.errcode := rfl
@[simp] theorem State.answered_errsub : (s.answered).errsub = s.errsub := rfl
@[simp] theorem State.answered_curop : (s.answered).curop = s.curop := rfl
@[simp] theorem State.answered_total : (s.answered).total = s.total := rfl
@[simp] theorem State.answered_expected : (s.answered).expected = s.expected := rfl
@[simp] theorem State.answered_decoded : (s.answered).decoded = s.decoded := rfl
@[simp] theorem State.answered_incnt : (s.answered).incnt = s.incnt := rfl
@[simp] theorem State.answered_outcnt : (s.answered).outcnt = s.outcnt := rfl
@[simp] theorem State.answered_root : (s.answered).root = s.root := rfl
@[simp] theorem State.answered_nsym : (s.answered).nsym = s.nsym := rfl
@[simp] theorem State.answered_freq : (s.answered).freq = s.freq := rfl
@[simp] theorem State.answered_nodes : (s.answered).nodes = s.nodes := rfl
@[simp] theorem State.answered_code : (s.answered).code = s.code := rfl
@[simp] theorem State.answered_pq : (s.answered).pq = s.pq := rfl
@[simp] theorem State.answered_acc : (s.answered).acc = s.acc := rfl
@[simp] theorem State.answered_nacc : (s.answered).nacc = s.nacc := rfl
@[simp] theorem State.answered_dbyte : (s.answered).dbyte = s.dbyte := rfl
@[simp] theorem State.answered_dbits : (s.answered).dbits = s.dbits := rfl
@[simp] theorem State.answered_cur : (s.answered).cur = s.cur := rfl
@[simp] theorem State.answered_path : (s.answered).path = s.path := rfl
@[simp] theorem State.answered_depth : (s.answered).depth = s.depth := rfl
@[simp] theorem State.answered_phase : (s.answered).phase = s.phase := rfl
@[simp] theorem State.answered_inq : (s.answered).inq = s.inq := rfl
@[simp] theorem State.answered_outq : (s.answered).outq = s.outq := rfl
@[simp] theorem State.answered_rsps : (s.answered).rsps = s.rsps := rfl
@[simp] theorem State.answered_moves : (s.answered).moves = s.moves := rfl
@[simp] theorem State.answered_sinkAnswers : (s.answered).sinkAnswers = s.sinkAnswers.tail := rfl
@[simp] theorem State.answered_sinkThen : (s.answered).sinkThen = s.sinkThen := rfl
@[simp] theorem State.answered_pace : (s.answered).pace = s.pace := rfl
@[simp] theorem State.answered_draws : (s.answered).draws = s.draws := rfl
end Answered

section Pushed
variable (s : State) (b : Byte)

@[simp] theorem State.pushed_fv : (s.pushed b).fv = s.fv := rfl
@[simp] theorem State.pushed_tv : (s.pushed b).tv = s.tv := rfl
@[simp] theorem State.pushed_bv : (s.pushed b).bv = s.bv := rfl
@[simp] theorem State.pushed_fin : (s.pushed b).fin = s.fin := rfl
@[simp] theorem State.pushed_err : (s.pushed b).err = s.err := rfl
@[simp] theorem State.pushed_shape : (s.pushed b).shape = s.shape := rfl
@[simp] theorem State.pushed_errcode : (s.pushed b).errcode = s.errcode := rfl
@[simp] theorem State.pushed_errsub : (s.pushed b).errsub = s.errsub := rfl
@[simp] theorem State.pushed_curop : (s.pushed b).curop = s.curop := rfl
@[simp] theorem State.pushed_total : (s.pushed b).total = s.total := rfl
@[simp] theorem State.pushed_expected : (s.pushed b).expected = s.expected := rfl
@[simp] theorem State.pushed_decoded : (s.pushed b).decoded = s.decoded := rfl
@[simp] theorem State.pushed_incnt : (s.pushed b).incnt = s.incnt := rfl
@[simp] theorem State.pushed_outcnt : (s.pushed b).outcnt = s.outcnt + 1 := rfl
@[simp] theorem State.pushed_root : (s.pushed b).root = s.root := rfl
@[simp] theorem State.pushed_nsym : (s.pushed b).nsym = s.nsym := rfl
@[simp] theorem State.pushed_freq : (s.pushed b).freq = s.freq := rfl
@[simp] theorem State.pushed_nodes : (s.pushed b).nodes = s.nodes := rfl
@[simp] theorem State.pushed_code : (s.pushed b).code = s.code := rfl
@[simp] theorem State.pushed_pq : (s.pushed b).pq = s.pq := rfl
@[simp] theorem State.pushed_acc : (s.pushed b).acc = s.acc := rfl
@[simp] theorem State.pushed_nacc : (s.pushed b).nacc = s.nacc := rfl
@[simp] theorem State.pushed_dbyte : (s.pushed b).dbyte = s.dbyte := rfl
@[simp] theorem State.pushed_dbits : (s.pushed b).dbits = s.dbits := rfl
@[simp] theorem State.pushed_cur : (s.pushed b).cur = s.cur := rfl
@[simp] theorem State.pushed_path : (s.pushed b).path = s.path := rfl
@[simp] theorem State.pushed_depth : (s.pushed b).depth = s.depth := rfl
@[simp] theorem State.pushed_phase : (s.pushed b).phase = s.phase := rfl
@[simp] theorem State.pushed_inq : (s.pushed b).inq = s.inq := rfl
@[simp] theorem State.pushed_outq : (s.pushed b).outq = s.outq ++ [b] := rfl
@[simp] theorem State.pushed_rsps : (s.pushed b).rsps = s.rsps := rfl
@[simp] theorem State.pushed_moves : (s.pushed b).moves = s.moves := rfl
@[simp] theorem State.pushed_sinkAnswers : (s.pushed b).sinkAnswers = s.sinkAnswers.tail := rfl
@[simp] theorem State.pushed_sinkThen : (s.pushed b).sinkThen = s.sinkThen := rfl
@[simp] theorem State.pushed_pace : (s.pushed b).pace = s.pace := rfl
@[simp] theorem State.pushed_draws : (s.pushed b).draws = s.draws := rfl
end Pushed

section Counted
variable (s : State) (b : Byte)

@[simp] theorem State.counted_fv : (s.counted b).fv = s.fv := rfl
@[simp] theorem State.counted_tv : (s.counted b).tv = s.tv := rfl
@[simp] theorem State.counted_bv : (s.counted b).bv = s.bv := rfl
@[simp] theorem State.counted_fin : (s.counted b).fin = s.fin := rfl
@[simp] theorem State.counted_err : (s.counted b).err = s.err := rfl
@[simp] theorem State.counted_shape : (s.counted b).shape = s.shape := rfl
@[simp] theorem State.counted_errcode : (s.counted b).errcode = s.errcode := rfl
@[simp] theorem State.counted_errsub : (s.counted b).errsub = s.errsub := rfl
@[simp] theorem State.counted_curop : (s.counted b).curop = s.curop := rfl
@[simp] theorem State.counted_total : (s.counted b).total = s.total + 1 := rfl
@[simp] theorem State.counted_expected : (s.counted b).expected = s.expected := rfl
@[simp] theorem State.counted_decoded : (s.counted b).decoded = s.decoded := rfl
@[simp] theorem State.counted_incnt : (s.counted b).incnt = s.incnt := rfl
@[simp] theorem State.counted_outcnt : (s.counted b).outcnt = s.outcnt := rfl
@[simp] theorem State.counted_root : (s.counted b).root = s.root := rfl
@[simp] theorem State.counted_nsym : (s.counted b).nsym = s.nsym := rfl
@[simp] theorem State.counted_freq : (s.counted b).freq = setEntry s.freq b (entry s.freq b + 1) := rfl
@[simp] theorem State.counted_nodes : (s.counted b).nodes = s.nodes := rfl
@[simp] theorem State.counted_code : (s.counted b).code = s.code := rfl
@[simp] theorem State.counted_pq : (s.counted b).pq = s.pq := rfl
@[simp] theorem State.counted_acc : (s.counted b).acc = s.acc := rfl
@[simp] theorem State.counted_nacc : (s.counted b).nacc = s.nacc := rfl
@[simp] theorem State.counted_dbyte : (s.counted b).dbyte = s.dbyte := rfl
@[simp] theorem State.counted_dbits : (s.counted b).dbits = s.dbits := rfl
@[simp] theorem State.counted_cur : (s.counted b).cur = s.cur := rfl
@[simp] theorem State.counted_path : (s.counted b).path = s.path := rfl
@[simp] theorem State.counted_depth : (s.counted b).depth = s.depth := rfl
@[simp] theorem State.counted_phase : (s.counted b).phase = s.phase := rfl
@[simp] theorem State.counted_inq : (s.counted b).inq = s.inq := rfl
@[simp] theorem State.counted_outq : (s.counted b).outq = s.outq := rfl
@[simp] theorem State.counted_rsps : (s.counted b).rsps = s.rsps := rfl
@[simp] theorem State.counted_moves : (s.counted b).moves = s.moves := rfl
@[simp] theorem State.counted_sinkAnswers : (s.counted b).sinkAnswers = s.sinkAnswers := rfl
@[simp] theorem State.counted_sinkThen : (s.counted b).sinkThen = s.sinkThen := rfl
@[simp] theorem State.counted_pace : (s.counted b).pace = s.pace := rfl
@[simp] theorem State.counted_draws : (s.counted b).draws = s.draws := rfl
end Counted

section Modifynode
variable (s : State) (i : NodeIdx) (f : Node → Node)

@[simp] theorem State.modifyNode_fv : (s.modifyNode i f).fv = s.fv := rfl
@[simp] theorem State.modifyNode_tv : (s.modifyNode i f).tv = s.tv := rfl
@[simp] theorem State.modifyNode_bv : (s.modifyNode i f).bv = s.bv := rfl
@[simp] theorem State.modifyNode_fin : (s.modifyNode i f).fin = s.fin := rfl
@[simp] theorem State.modifyNode_err : (s.modifyNode i f).err = s.err := rfl
@[simp] theorem State.modifyNode_shape : (s.modifyNode i f).shape = s.shape := rfl
@[simp] theorem State.modifyNode_errcode : (s.modifyNode i f).errcode = s.errcode := rfl
@[simp] theorem State.modifyNode_errsub : (s.modifyNode i f).errsub = s.errsub := rfl
@[simp] theorem State.modifyNode_curop : (s.modifyNode i f).curop = s.curop := rfl
@[simp] theorem State.modifyNode_total : (s.modifyNode i f).total = s.total := rfl
@[simp] theorem State.modifyNode_expected : (s.modifyNode i f).expected = s.expected := rfl
@[simp] theorem State.modifyNode_decoded : (s.modifyNode i f).decoded = s.decoded := rfl
@[simp] theorem State.modifyNode_incnt : (s.modifyNode i f).incnt = s.incnt := rfl
@[simp] theorem State.modifyNode_outcnt : (s.modifyNode i f).outcnt = s.outcnt := rfl
@[simp] theorem State.modifyNode_root : (s.modifyNode i f).root = s.root := rfl
@[simp] theorem State.modifyNode_nsym : (s.modifyNode i f).nsym = s.nsym := rfl
@[simp] theorem State.modifyNode_freq : (s.modifyNode i f).freq = s.freq := rfl
@[simp] theorem State.modifyNode_nodes : (s.modifyNode i f).nodes = s.nodes.modify i.toNat f := rfl
@[simp] theorem State.modifyNode_code : (s.modifyNode i f).code = s.code := rfl
@[simp] theorem State.modifyNode_pq : (s.modifyNode i f).pq = s.pq := rfl
@[simp] theorem State.modifyNode_acc : (s.modifyNode i f).acc = s.acc := rfl
@[simp] theorem State.modifyNode_nacc : (s.modifyNode i f).nacc = s.nacc := rfl
@[simp] theorem State.modifyNode_dbyte : (s.modifyNode i f).dbyte = s.dbyte := rfl
@[simp] theorem State.modifyNode_dbits : (s.modifyNode i f).dbits = s.dbits := rfl
@[simp] theorem State.modifyNode_cur : (s.modifyNode i f).cur = s.cur := rfl
@[simp] theorem State.modifyNode_path : (s.modifyNode i f).path = s.path := rfl
@[simp] theorem State.modifyNode_depth : (s.modifyNode i f).depth = s.depth := rfl
@[simp] theorem State.modifyNode_phase : (s.modifyNode i f).phase = s.phase := rfl
@[simp] theorem State.modifyNode_inq : (s.modifyNode i f).inq = s.inq := rfl
@[simp] theorem State.modifyNode_outq : (s.modifyNode i f).outq = s.outq := rfl
@[simp] theorem State.modifyNode_rsps : (s.modifyNode i f).rsps = s.rsps := rfl
@[simp] theorem State.modifyNode_moves : (s.modifyNode i f).moves = s.moves := rfl
@[simp] theorem State.modifyNode_sinkAnswers : (s.modifyNode i f).sinkAnswers = s.sinkAnswers := rfl
@[simp] theorem State.modifyNode_sinkThen : (s.modifyNode i f).sinkThen = s.sinkThen := rfl
@[simp] theorem State.modifyNode_pace : (s.modifyNode i f).pace = s.pace := rfl
@[simp] theorem State.modifyNode_draws : (s.modifyNode i f).draws = s.draws := rfl
end Modifynode

section Allocated
variable (s : State) (n : Node)

@[simp] theorem State.allocated_fv : (s.allocated n).fv = s.fv := rfl
@[simp] theorem State.allocated_tv : (s.allocated n).tv = s.tv := rfl
@[simp] theorem State.allocated_bv : (s.allocated n).bv = s.bv := rfl
@[simp] theorem State.allocated_fin : (s.allocated n).fin = s.fin := rfl
@[simp] theorem State.allocated_err : (s.allocated n).err = s.err := rfl
@[simp] theorem State.allocated_shape : (s.allocated n).shape = s.shape := rfl
@[simp] theorem State.allocated_errcode : (s.allocated n).errcode = s.errcode := rfl
@[simp] theorem State.allocated_errsub : (s.allocated n).errsub = s.errsub := rfl
@[simp] theorem State.allocated_curop : (s.allocated n).curop = s.curop := rfl
@[simp] theorem State.allocated_total : (s.allocated n).total = s.total := rfl
@[simp] theorem State.allocated_expected : (s.allocated n).expected = s.expected := rfl
@[simp] theorem State.allocated_decoded : (s.allocated n).decoded = s.decoded := rfl
@[simp] theorem State.allocated_incnt : (s.allocated n).incnt = s.incnt := rfl
@[simp] theorem State.allocated_outcnt : (s.allocated n).outcnt = s.outcnt := rfl
@[simp] theorem State.allocated_root : (s.allocated n).root = s.root := rfl
@[simp] theorem State.allocated_nsym : (s.allocated n).nsym = s.nsym := rfl
@[simp] theorem State.allocated_freq : (s.allocated n).freq = s.freq := rfl
@[simp] theorem State.allocated_nodes : (s.allocated n).nodes = s.nodes ++ [n] := rfl
@[simp] theorem State.allocated_code : (s.allocated n).code = s.code := rfl
@[simp] theorem State.allocated_pq : (s.allocated n).pq = s.pq := rfl
@[simp] theorem State.allocated_acc : (s.allocated n).acc = s.acc := rfl
@[simp] theorem State.allocated_nacc : (s.allocated n).nacc = s.nacc := rfl
@[simp] theorem State.allocated_dbyte : (s.allocated n).dbyte = s.dbyte := rfl
@[simp] theorem State.allocated_dbits : (s.allocated n).dbits = s.dbits := rfl
@[simp] theorem State.allocated_cur : (s.allocated n).cur = s.cur := rfl
@[simp] theorem State.allocated_path : (s.allocated n).path = s.path := rfl
@[simp] theorem State.allocated_depth : (s.allocated n).depth = s.depth := rfl
@[simp] theorem State.allocated_phase : (s.allocated n).phase = s.phase := rfl
@[simp] theorem State.allocated_inq : (s.allocated n).inq = s.inq := rfl
@[simp] theorem State.allocated_outq : (s.allocated n).outq = s.outq := rfl
@[simp] theorem State.allocated_rsps : (s.allocated n).rsps = s.rsps := rfl
@[simp] theorem State.allocated_moves : (s.allocated n).moves = s.moves := rfl
@[simp] theorem State.allocated_sinkAnswers : (s.allocated n).sinkAnswers = s.sinkAnswers := rfl
@[simp] theorem State.allocated_sinkThen : (s.allocated n).sinkThen = s.sinkThen := rfl
@[simp] theorem State.allocated_pace : (s.allocated n).pace = s.pace := rfl
@[simp] theorem State.allocated_draws : (s.allocated n).draws = s.draws := rfl
end Allocated

section Treeread
variable (s : State) (i : NodeIdx) (h : BitVec 2)

@[simp] theorem State.treeRead_fv : (s.treeRead i h).fv = s.fv := rfl
@[simp] theorem State.treeRead_tv : (s.treeRead i h).tv = true := rfl
@[simp] theorem State.treeRead_bv : (s.treeRead i h).bv = s.bv := rfl
@[simp] theorem State.treeRead_fin : (s.treeRead i h).fin = s.fin := rfl
@[simp] theorem State.treeRead_err : (s.treeRead i h).err = s.err := rfl
@[simp] theorem State.treeRead_shape : (s.treeRead i h).shape = h := rfl
@[simp] theorem State.treeRead_errcode : (s.treeRead i h).errcode = s.errcode := rfl
@[simp] theorem State.treeRead_errsub : (s.treeRead i h).errsub = s.errsub := rfl
@[simp] theorem State.treeRead_curop : (s.treeRead i h).curop = s.curop := rfl
@[simp] theorem State.treeRead_total : (s.treeRead i h).total = s.total := rfl
@[simp] theorem State.treeRead_expected : (s.treeRead i h).expected = s.expected := rfl
@[simp] theorem State.treeRead_decoded : (s.treeRead i h).decoded = s.decoded := rfl
@[simp] theorem State.treeRead_incnt : (s.treeRead i h).incnt = s.incnt := rfl
@[simp] theorem State.treeRead_outcnt : (s.treeRead i h).outcnt = s.outcnt := rfl
@[simp] theorem State.treeRead_root : (s.treeRead i h).root = i := rfl
@[simp] theorem State.treeRead_nsym : (s.treeRead i h).nsym = s.nsym := rfl
@[simp] theorem State.treeRead_freq : (s.treeRead i h).freq = s.freq := rfl
@[simp] theorem State.treeRead_nodes : (s.treeRead i h).nodes = s.nodes := rfl
@[simp] theorem State.treeRead_code : (s.treeRead i h).code = s.code := rfl
@[simp] theorem State.treeRead_pq : (s.treeRead i h).pq = s.pq := rfl
@[simp] theorem State.treeRead_acc : (s.treeRead i h).acc = s.acc := rfl
@[simp] theorem State.treeRead_nacc : (s.treeRead i h).nacc = s.nacc := rfl
@[simp] theorem State.treeRead_dbyte : (s.treeRead i h).dbyte = s.dbyte := rfl
@[simp] theorem State.treeRead_dbits : (s.treeRead i h).dbits = s.dbits := rfl
@[simp] theorem State.treeRead_cur : (s.treeRead i h).cur = s.cur := rfl
@[simp] theorem State.treeRead_path : (s.treeRead i h).path = s.path := rfl
@[simp] theorem State.treeRead_depth : (s.treeRead i h).depth = s.depth := rfl
@[simp] theorem State.treeRead_phase : (s.treeRead i h).phase = .idle := rfl
@[simp] theorem State.treeRead_inq : (s.treeRead i h).inq = s.inq := rfl
@[simp] theorem State.treeRead_outq : (s.treeRead i h).outq = s.outq := rfl
@[simp] theorem State.treeRead_rsps : (s.treeRead i h).rsps = s.rsps ++ [⟨respOk, 0⟩] := rfl
@[simp] theorem State.treeRead_moves : (s.treeRead i h).moves = s.moves := rfl
@[simp] theorem State.treeRead_sinkAnswers : (s.treeRead i h).sinkAnswers = s.sinkAnswers := rfl
@[simp] theorem State.treeRead_sinkThen : (s.treeRead i h).sinkThen = s.sinkThen := rfl
@[simp] theorem State.treeRead_pace : (s.treeRead i h).pace = s.pace := rfl
@[simp] theorem State.treeRead_draws : (s.treeRead i h).draws = s.draws := rfl
end Treeread

section Putbit
variable (s : State) (v : Bool)

@[simp] theorem State.putBit_fv : (s.putBit v).fv = s.fv := rfl
@[simp] theorem State.putBit_tv : (s.putBit v).tv = s.tv := rfl
@[simp] theorem State.putBit_bv : (s.putBit v).bv = s.bv := rfl
@[simp] theorem State.putBit_fin : (s.putBit v).fin = s.fin := rfl
@[simp] theorem State.putBit_err : (s.putBit v).err = s.err := rfl
@[simp] theorem State.putBit_shape : (s.putBit v).shape = s.shape := rfl
@[simp] theorem State.putBit_errcode : (s.putBit v).errcode = s.errcode := rfl
@[simp] theorem State.putBit_errsub : (s.putBit v).errsub = s.errsub := rfl
@[simp] theorem State.putBit_curop : (s.putBit v).curop = s.curop := rfl
@[simp] theorem State.putBit_total : (s.putBit v).total = s.total := rfl
@[simp] theorem State.putBit_expected : (s.putBit v).expected = s.expected := rfl
@[simp] theorem State.putBit_decoded : (s.putBit v).decoded = s.decoded := rfl
@[simp] theorem State.putBit_incnt : (s.putBit v).incnt = s.incnt := rfl
@[simp] theorem State.putBit_outcnt : (s.putBit v).outcnt = s.outcnt := rfl
@[simp] theorem State.putBit_root : (s.putBit v).root = s.root := rfl
@[simp] theorem State.putBit_nsym : (s.putBit v).nsym = s.nsym := rfl
@[simp] theorem State.putBit_freq : (s.putBit v).freq = s.freq := rfl
@[simp] theorem State.putBit_nodes : (s.putBit v).nodes = s.nodes := rfl
@[simp] theorem State.putBit_code : (s.putBit v).code = s.code := rfl
@[simp] theorem State.putBit_pq : (s.putBit v).pq = s.pq := rfl
@[simp] theorem State.putBit_acc : (s.putBit v).acc = s.shiftedIn v := rfl
@[simp] theorem State.putBit_nacc : (s.putBit v).nacc = s.nacc + 1 := rfl
@[simp] theorem State.putBit_dbyte : (s.putBit v).dbyte = s.dbyte := rfl
@[simp] theorem State.putBit_dbits : (s.putBit v).dbits = s.dbits := rfl
@[simp] theorem State.putBit_cur : (s.putBit v).cur = s.cur := rfl
@[simp] theorem State.putBit_path : (s.putBit v).path = s.path := rfl
@[simp] theorem State.putBit_depth : (s.putBit v).depth = s.depth := rfl
@[simp] theorem State.putBit_phase : (s.putBit v).phase = s.phase := rfl
@[simp] theorem State.putBit_inq : (s.putBit v).inq = s.inq := rfl
@[simp] theorem State.putBit_outq : (s.putBit v).outq = s.outq := rfl
@[simp] theorem State.putBit_rsps : (s.putBit v).rsps = s.rsps := rfl
@[simp] theorem State.putBit_moves : (s.putBit v).moves = s.moves := rfl
@[simp] theorem State.putBit_sinkAnswers : (s.putBit v).sinkAnswers = s.sinkAnswers := rfl
@[simp] theorem State.putBit_sinkThen : (s.putBit v).sinkThen = s.sinkThen := rfl
@[simp] theorem State.putBit_pace : (s.putBit v).pace = s.pace := rfl
@[simp] theorem State.putBit_draws : (s.putBit v).draws = s.draws := rfl
end Putbit

section Emptyacc
variable (s : State)

@[simp] theorem State.emptyAcc_fv : (s.emptyAcc).fv = s.fv := rfl
@[simp] theorem State.emptyAcc_tv : (s.emptyAcc).tv = s.tv := rfl
@[simp] theorem State.emptyAcc_bv : (s.emptyAcc).bv = s.bv := rfl
@[simp] theorem State.emptyAcc_fin : (s.emptyAcc).fin = s.fin := rfl
@[simp] theorem State.emptyAcc_err : (s.emptyAcc).err = s.err := rfl
@[simp] theorem State.emptyAcc_shape : (s.emptyAcc).shape = s.shape := rfl
@[simp] theorem State.emptyAcc_errcode : (s.emptyAcc).errcode = s.errcode := rfl
@[simp] theorem State.emptyAcc_errsub : (s.emptyAcc).errsub = s.errsub := rfl
@[simp] theorem State.emptyAcc_curop : (s.emptyAcc).curop = s.curop := rfl
@[simp] theorem State.emptyAcc_total : (s.emptyAcc).total = s.total := rfl
@[simp] theorem State.emptyAcc_expected : (s.emptyAcc).expected = s.expected := rfl
@[simp] theorem State.emptyAcc_decoded : (s.emptyAcc).decoded = s.decoded := rfl
@[simp] theorem State.emptyAcc_incnt : (s.emptyAcc).incnt = s.incnt := rfl
@[simp] theorem State.emptyAcc_outcnt : (s.emptyAcc).outcnt = s.outcnt := rfl
@[simp] theorem State.emptyAcc_root : (s.emptyAcc).root = s.root := rfl
@[simp] theorem State.emptyAcc_nsym : (s.emptyAcc).nsym = s.nsym := rfl
@[simp] theorem State.emptyAcc_freq : (s.emptyAcc).freq = s.freq := rfl
@[simp] theorem State.emptyAcc_nodes : (s.emptyAcc).nodes = s.nodes := rfl
@[simp] theorem State.emptyAcc_code : (s.emptyAcc).code = s.code := rfl
@[simp] theorem State.emptyAcc_pq : (s.emptyAcc).pq = s.pq := rfl
@[simp] theorem State.emptyAcc_acc : (s.emptyAcc).acc = 0 := rfl
@[simp] theorem State.emptyAcc_nacc : (s.emptyAcc).nacc = 0 := rfl
@[simp] theorem State.emptyAcc_dbyte : (s.emptyAcc).dbyte = s.dbyte := rfl
@[simp] theorem State.emptyAcc_dbits : (s.emptyAcc).dbits = s.dbits := rfl
@[simp] theorem State.emptyAcc_cur : (s.emptyAcc).cur = s.cur := rfl
@[simp] theorem State.emptyAcc_path : (s.emptyAcc).path = s.path := rfl
@[simp] theorem State.emptyAcc_depth : (s.emptyAcc).depth = s.depth := rfl
@[simp] theorem State.emptyAcc_phase : (s.emptyAcc).phase = s.phase := rfl
@[simp] theorem State.emptyAcc_inq : (s.emptyAcc).inq = s.inq := rfl
@[simp] theorem State.emptyAcc_outq : (s.emptyAcc).outq = s.outq := rfl
@[simp] theorem State.emptyAcc_rsps : (s.emptyAcc).rsps = s.rsps := rfl
@[simp] theorem State.emptyAcc_moves : (s.emptyAcc).moves = s.moves := rfl
@[simp] theorem State.emptyAcc_sinkAnswers : (s.emptyAcc).sinkAnswers = s.sinkAnswers := rfl
@[simp] theorem State.emptyAcc_sinkThen : (s.emptyAcc).sinkThen = s.sinkThen := rfl
@[simp] theorem State.emptyAcc_pace : (s.emptyAcc).pace = s.pace := rfl
@[simp] theorem State.emptyAcc_draws : (s.emptyAcc).draws = s.draws := rfl
end Emptyacc

section Encdone
variable (s : State)

@[simp] theorem State.encDone_fv : (s.encDone).fv = s.fv := rfl
@[simp] theorem State.encDone_tv : (s.encDone).tv = s.tv := rfl
@[simp] theorem State.encDone_bv : (s.encDone).bv = s.bv := rfl
@[simp] theorem State.encDone_fin : (s.encDone).fin = true := rfl
@[simp] theorem State.encDone_err : (s.encDone).err = s.err := rfl
@[simp] theorem State.encDone_shape : (s.encDone).shape = s.shape := rfl
@[simp] theorem State.encDone_errcode : (s.encDone).errcode = s.errcode := rfl
@[simp] theorem State.encDone_errsub : (s.encDone).errsub = s.errsub := rfl
@[simp] theorem State.encDone_curop : (s.encDone).curop = s.curop := rfl
@[simp] theorem State.encDone_total : (s.encDone).total = s.total := rfl
@[simp] theorem State.encDone_expected : (s.encDone).expected = s.expected := rfl
@[simp] theorem State.encDone_decoded : (s.encDone).decoded = s.decoded := rfl
@[simp] theorem State.encDone_incnt : (s.encDone).incnt = s.incnt := rfl
@[simp] theorem State.encDone_outcnt : (s.encDone).outcnt = s.outcnt := rfl
@[simp] theorem State.encDone_root : (s.encDone).root = s.root := rfl
@[simp] theorem State.encDone_nsym : (s.encDone).nsym = s.nsym := rfl
@[simp] theorem State.encDone_freq : (s.encDone).freq = s.freq := rfl
@[simp] theorem State.encDone_nodes : (s.encDone).nodes = s.nodes := rfl
@[simp] theorem State.encDone_code : (s.encDone).code = s.code := rfl
@[simp] theorem State.encDone_pq : (s.encDone).pq = s.pq := rfl
@[simp] theorem State.encDone_acc : (s.encDone).acc = 0 := rfl
@[simp] theorem State.encDone_nacc : (s.encDone).nacc = 0 := rfl
@[simp] theorem State.encDone_dbyte : (s.encDone).dbyte = s.dbyte := rfl
@[simp] theorem State.encDone_dbits : (s.encDone).dbits = s.dbits := rfl
@[simp] theorem State.encDone_cur : (s.encDone).cur = s.cur := rfl
@[simp] theorem State.encDone_path : (s.encDone).path = s.path := rfl
@[simp] theorem State.encDone_depth : (s.encDone).depth = s.depth := rfl
@[simp] theorem State.encDone_phase : (s.encDone).phase = .idle := rfl
@[simp] theorem State.encDone_inq : (s.encDone).inq = s.inq := rfl
@[simp] theorem State.encDone_outq : (s.encDone).outq = s.outq := rfl
@[simp] theorem State.encDone_rsps : (s.encDone).rsps = s.rsps ++ [⟨respOk, 0⟩] := rfl
@[simp] theorem State.encDone_moves : (s.encDone).moves = s.moves := rfl
@[simp] theorem State.encDone_sinkAnswers : (s.encDone).sinkAnswers = s.sinkAnswers := rfl
@[simp] theorem State.encDone_sinkThen : (s.encDone).sinkThen = s.sinkThen := rfl
@[simp] theorem State.encDone_pace : (s.encDone).pace = s.pace := rfl
@[simp] theorem State.encDone_draws : (s.encDone).draws = s.draws := rfl
end Encdone

section Bittaken
variable (s : State)

@[simp] theorem State.bitTaken_fv : (s.bitTaken).fv = s.fv := rfl
@[simp] theorem State.bitTaken_tv : (s.bitTaken).tv = s.tv := rfl
@[simp] theorem State.bitTaken_bv : (s.bitTaken).bv = s.bv := rfl
@[simp] theorem State.bitTaken_fin : (s.bitTaken).fin = s.fin := rfl
@[simp] theorem State.bitTaken_err : (s.bitTaken).err = s.err := rfl
@[simp] theorem State.bitTaken_shape : (s.bitTaken).shape = s.shape := rfl
@[simp] theorem State.bitTaken_errcode : (s.bitTaken).errcode = s.errcode := rfl
@[simp] theorem State.bitTaken_errsub : (s.bitTaken).errsub = s.errsub := rfl
@[simp] theorem State.bitTaken_curop : (s.bitTaken).curop = s.curop := rfl
@[simp] theorem State.bitTaken_total : (s.bitTaken).total = s.total := rfl
@[simp] theorem State.bitTaken_expected : (s.bitTaken).expected = s.expected := rfl
@[simp] theorem State.bitTaken_decoded : (s.bitTaken).decoded = s.decoded := rfl
@[simp] theorem State.bitTaken_incnt : (s.bitTaken).incnt = s.incnt := rfl
@[simp] theorem State.bitTaken_outcnt : (s.bitTaken).outcnt = s.outcnt := rfl
@[simp] theorem State.bitTaken_root : (s.bitTaken).root = s.root := rfl
@[simp] theorem State.bitTaken_nsym : (s.bitTaken).nsym = s.nsym := rfl
@[simp] theorem State.bitTaken_freq : (s.bitTaken).freq = s.freq := rfl
@[simp] theorem State.bitTaken_nodes : (s.bitTaken).nodes = s.nodes := rfl
@[simp] theorem State.bitTaken_code : (s.bitTaken).code = s.code := rfl
@[simp] theorem State.bitTaken_pq : (s.bitTaken).pq = s.pq := rfl
@[simp] theorem State.bitTaken_acc : (s.bitTaken).acc = s.acc := rfl
@[simp] theorem State.bitTaken_nacc : (s.bitTaken).nacc = s.nacc := rfl
@[simp] theorem State.bitTaken_dbyte : (s.bitTaken).dbyte = s.dbyte <<< 1 := rfl
@[simp] theorem State.bitTaken_dbits : (s.bitTaken).dbits = s.dbits - 1 := rfl
@[simp] theorem State.bitTaken_cur : (s.bitTaken).cur = s.cur := rfl
@[simp] theorem State.bitTaken_path : (s.bitTaken).path = s.path := rfl
@[simp] theorem State.bitTaken_depth : (s.bitTaken).depth = s.depth := rfl
@[simp] theorem State.bitTaken_phase : (s.bitTaken).phase = s.phase := rfl
@[simp] theorem State.bitTaken_inq : (s.bitTaken).inq = s.inq := rfl
@[simp] theorem State.bitTaken_outq : (s.bitTaken).outq = s.outq := rfl
@[simp] theorem State.bitTaken_rsps : (s.bitTaken).rsps = s.rsps := rfl
@[simp] theorem State.bitTaken_moves : (s.bitTaken).moves = s.moves := rfl
@[simp] theorem State.bitTaken_sinkAnswers : (s.bitTaken).sinkAnswers = s.sinkAnswers := rfl
@[simp] theorem State.bitTaken_sinkThen : (s.bitTaken).sinkThen = s.sinkThen := rfl
@[simp] theorem State.bitTaken_pace : (s.bitTaken).pace = s.pace := rfl
@[simp] theorem State.bitTaken_draws : (s.bitTaken).draws = s.draws := rfl
end Bittaken

section Generated
variable (s : State) (c : Vector Code 256) (w : Bool)

@[simp] theorem State.generated_fv : (s.generated c w).fv = s.fv := rfl
@[simp] theorem State.generated_tv : (s.generated c w).tv = s.tv := rfl
@[simp] theorem State.generated_bv : (s.generated c w).bv = true := rfl
@[simp] theorem State.generated_fin : (s.generated c w).fin = s.fin := rfl
@[simp] theorem State.generated_err : (s.generated c w).err = s.err := rfl
@[simp] theorem State.generated_shape : (s.generated c w).shape = s.shape := rfl
@[simp] theorem State.generated_errcode : (s.generated c w).errcode = s.errcode := rfl
@[simp] theorem State.generated_errsub : (s.generated c w).errsub = s.errsub := rfl
@[simp] theorem State.generated_curop : (s.generated c w).curop = s.curop := rfl
@[simp] theorem State.generated_total : (s.generated c w).total = s.total := rfl
@[simp] theorem State.generated_expected : (s.generated c w).expected = s.expected := rfl
@[simp] theorem State.generated_decoded : (s.generated c w).decoded = s.decoded := rfl
@[simp] theorem State.generated_incnt : (s.generated c w).incnt = s.incnt := rfl
@[simp] theorem State.generated_outcnt : (s.generated c w).outcnt = s.outcnt := rfl
@[simp] theorem State.generated_root : (s.generated c w).root = s.root := rfl
@[simp] theorem State.generated_nsym : (s.generated c w).nsym = s.nsym := rfl
@[simp] theorem State.generated_freq : (s.generated c w).freq = s.freq := rfl
@[simp] theorem State.generated_nodes : (s.generated c w).nodes = s.nodes := rfl
@[simp] theorem State.generated_code : (s.generated c w).code = c := rfl
@[simp] theorem State.generated_pq : (s.generated c w).pq = s.pq := rfl
@[simp] theorem State.generated_acc : (s.generated c w).acc = s.acc := rfl
@[simp] theorem State.generated_nacc : (s.generated c w).nacc = s.nacc := rfl
@[simp] theorem State.generated_dbyte : (s.generated c w).dbyte = s.dbyte := rfl
@[simp] theorem State.generated_dbits : (s.generated c w).dbits = s.dbits := rfl
@[simp] theorem State.generated_cur : (s.generated c w).cur = s.cur := rfl
@[simp] theorem State.generated_path : (s.generated c w).path = if w then Config.scratchPath s.draws else s.path := rfl
@[simp] theorem State.generated_depth : (s.generated c w).depth = if w then Config.scratchDepth s.draws else s.depth := rfl
@[simp] theorem State.generated_phase : (s.generated c w).phase = s.phase := rfl
@[simp] theorem State.generated_inq : (s.generated c w).inq = s.inq := rfl
@[simp] theorem State.generated_outq : (s.generated c w).outq = s.outq := rfl
@[simp] theorem State.generated_rsps : (s.generated c w).rsps = s.rsps := rfl
@[simp] theorem State.generated_moves : (s.generated c w).moves = s.moves := rfl
@[simp] theorem State.generated_sinkAnswers : (s.generated c w).sinkAnswers = s.sinkAnswers := rfl
@[simp] theorem State.generated_sinkThen : (s.generated c w).sinkThen = s.sinkThen := rfl
@[simp] theorem State.generated_pace : (s.generated c w).pace = s.pace := rfl
@[simp] theorem State.generated_draws : (s.generated c w).draws = if w then s.draws + 1 else s.draws := rfl
end Generated

section Withcommand
variable (s : State) (cw : Word) (d : Data)

@[simp] theorem State.withCommand_fv : (s.withCommand cw d).fv = s.fv := rfl
@[simp] theorem State.withCommand_tv : (s.withCommand cw d).tv = s.tv := rfl
@[simp] theorem State.withCommand_bv : (s.withCommand cw d).bv = s.bv := rfl
@[simp] theorem State.withCommand_fin : (s.withCommand cw d).fin = s.fin := rfl
@[simp] theorem State.withCommand_err : (s.withCommand cw d).err = s.err := rfl
@[simp] theorem State.withCommand_shape : (s.withCommand cw d).shape = s.shape := rfl
@[simp] theorem State.withCommand_errcode : (s.withCommand cw d).errcode = s.errcode := rfl
@[simp] theorem State.withCommand_errsub : (s.withCommand cw d).errsub = s.errsub := rfl
@[simp] theorem State.withCommand_curop : (s.withCommand cw d).curop = s.curop := rfl
@[simp] theorem State.withCommand_total : (s.withCommand cw d).total = s.total := rfl
@[simp] theorem State.withCommand_expected : (s.withCommand cw d).expected = s.expected := rfl
@[simp] theorem State.withCommand_decoded : (s.withCommand cw d).decoded = s.decoded := rfl
@[simp] theorem State.withCommand_incnt : (s.withCommand cw d).incnt = s.incnt := rfl
@[simp] theorem State.withCommand_outcnt : (s.withCommand cw d).outcnt = s.outcnt := rfl
@[simp] theorem State.withCommand_root : (s.withCommand cw d).root = s.root := rfl
@[simp] theorem State.withCommand_nsym : (s.withCommand cw d).nsym = s.nsym := rfl
@[simp] theorem State.withCommand_freq : (s.withCommand cw d).freq = s.freq := rfl
@[simp] theorem State.withCommand_nodes : (s.withCommand cw d).nodes = s.nodes := rfl
@[simp] theorem State.withCommand_code : (s.withCommand cw d).code = s.code := rfl
@[simp] theorem State.withCommand_pq : (s.withCommand cw d).pq = s.pq := rfl
@[simp] theorem State.withCommand_acc : (s.withCommand cw d).acc = s.acc := rfl
@[simp] theorem State.withCommand_nacc : (s.withCommand cw d).nacc = s.nacc := rfl
@[simp] theorem State.withCommand_dbyte : (s.withCommand cw d).dbyte = s.dbyte := rfl
@[simp] theorem State.withCommand_dbits : (s.withCommand cw d).dbits = s.dbits := rfl
@[simp] theorem State.withCommand_cur : (s.withCommand cw d).cur = s.cur := rfl
@[simp] theorem State.withCommand_path : (s.withCommand cw d).path = s.path := rfl
@[simp] theorem State.withCommand_depth : (s.withCommand cw d).depth = s.depth := rfl
@[simp] theorem State.withCommand_phase : (s.withCommand cw d).phase = s.phase := rfl
@[simp] theorem State.withCommand_inq : (s.withCommand cw d).inq = s.inq := rfl
@[simp] theorem State.withCommand_outq : (s.withCommand cw d).outq = s.outq := rfl
@[simp] theorem State.withCommand_rsps : (s.withCommand cw d).rsps = s.rsps := rfl
@[simp] theorem State.withCommand_moves : (s.withCommand cw d).moves = .issue cw d :: s.moves := rfl
@[simp] theorem State.withCommand_sinkAnswers : (s.withCommand cw d).sinkAnswers = s.sinkAnswers := rfl
@[simp] theorem State.withCommand_sinkThen : (s.withCommand cw d).sinkThen = s.sinkThen := rfl
@[simp] theorem State.withCommand_pace : (s.withCommand cw d).pace = s.pace := rfl
@[simp] theorem State.withCommand_draws : (s.withCommand cw d).draws = s.draws := rfl
end Withcommand

section Cleared
variable (s : State)

@[simp] theorem State.cleared_fv : s.cleared.fv = State.reset.fv := rfl
@[simp] theorem State.cleared_tv : s.cleared.tv = State.reset.tv := rfl
@[simp] theorem State.cleared_bv : s.cleared.bv = State.reset.bv := rfl
@[simp] theorem State.cleared_fin : s.cleared.fin = State.reset.fin := rfl
@[simp] theorem State.cleared_err : s.cleared.err = State.reset.err := rfl
@[simp] theorem State.cleared_shape : s.cleared.shape = State.reset.shape := rfl
@[simp] theorem State.cleared_errcode : s.cleared.errcode = State.reset.errcode := rfl
@[simp] theorem State.cleared_errsub : s.cleared.errsub = State.reset.errsub := rfl
@[simp] theorem State.cleared_curop : s.cleared.curop = State.reset.curop := rfl
@[simp] theorem State.cleared_total : s.cleared.total = State.reset.total := rfl
@[simp] theorem State.cleared_expected : s.cleared.expected = State.reset.expected := rfl
@[simp] theorem State.cleared_decoded : s.cleared.decoded = State.reset.decoded := rfl
@[simp] theorem State.cleared_incnt : s.cleared.incnt = State.reset.incnt := rfl
@[simp] theorem State.cleared_outcnt : s.cleared.outcnt = State.reset.outcnt := rfl
@[simp] theorem State.cleared_root : s.cleared.root = State.reset.root := rfl
@[simp] theorem State.cleared_nsym : s.cleared.nsym = State.reset.nsym := rfl
@[simp] theorem State.cleared_freq : s.cleared.freq = State.reset.freq := rfl
@[simp] theorem State.cleared_nodes : s.cleared.nodes = State.reset.nodes := rfl
@[simp] theorem State.cleared_code : s.cleared.code = State.reset.code := rfl
@[simp] theorem State.cleared_pq : s.cleared.pq = State.reset.pq := rfl
@[simp] theorem State.cleared_acc : s.cleared.acc = State.reset.acc := rfl
@[simp] theorem State.cleared_nacc : s.cleared.nacc = State.reset.nacc := rfl
@[simp] theorem State.cleared_dbyte : s.cleared.dbyte = State.reset.dbyte := rfl
@[simp] theorem State.cleared_dbits : s.cleared.dbits = State.reset.dbits := rfl
@[simp] theorem State.cleared_cur : s.cleared.cur = State.reset.cur := rfl
@[simp] theorem State.cleared_path : s.cleared.path = State.reset.path := rfl
@[simp] theorem State.cleared_depth : s.cleared.depth = State.reset.depth := rfl
@[simp] theorem State.cleared_phase : s.cleared.phase = State.reset.phase := rfl
@[simp] theorem State.cleared_inq : s.cleared.inq = s.inq := rfl
@[simp] theorem State.cleared_outq : s.cleared.outq = s.outq := rfl
@[simp] theorem State.cleared_rsps : s.cleared.rsps = s.rsps := rfl
@[simp] theorem State.cleared_moves : s.cleared.moves = s.moves := rfl
@[simp] theorem State.cleared_sinkAnswers : s.cleared.sinkAnswers = s.sinkAnswers := rfl
@[simp] theorem State.cleared_sinkThen : s.cleared.sinkThen = s.sinkThen := rfl
@[simp] theorem State.cleared_pace : s.cleared.pace = s.pace := rfl
@[simp] theorem State.cleared_draws : s.cleared.draws = s.draws := rfl
end Cleared

end Sys2Proof.Machine
end

