-- ==== Sys2Proof/Laws/Ops.lean ====
section
/-! SUPPORT. For each shared operation, once, what it can do: the checks at issue, going on, the stream accesses. -/

namespace Sys2Proof.Machine

variable {s t : State} {i : Instr} {k rule : State → Result}

/-- All checks pass exactly when the word is legal, no command runs or this one may overlap it, and the sequence and the range
conditions hold (R96). -/
theorem checks_eq_none : checks i s = none ↔
    i.wf = true ∧ (s.busy = false ∨ mayOverlap i = true) ∧ seqOk i s = true ∧ rangeOk i s = true := by
  unfold checks
  cases i.wf <;> cases s.busy <;> cases mayOverlap i <;> cases seqOk i s <;> cases rangeOk i s <;> simp

/-- A failed check answers one of the four rejections (R93). -/
theorem checks_eq_some {r : BitVec 4} (h : checks i s = some r) :
    r = rejIllegal ∨ r = rejBusy ∨ r = rejSeq ∨ r = rejRange := by
  unfold checks at h
  split at h
  · simp_all
  · split at h
    · simp_all
    · split at h
      · simp_all
      · split at h <;> simp_all

theorem issued_of_pass (h : checks i s = none) : issued i s rule = rule (s.accept i) := by simp [issued, h]

theorem issued_of_fail {r : BitVec 4} (h : checks i s = some r) : issued i s rule = .next (s.respond r 0) := by
  simp [issued, h, reject]

/-- What issuing a command can do: a rejection that changes nothing but the response channel, or the accept and the command's
rule (R96). -/
theorem issued_cases (i : Instr) (s : State) (rule : State → Result) :
    (∃ r, checks i s = some r ∧ issued i s rule = .next (s.respond r 0)) ∨
      checks i s = none ∧ issued i s rule = rule (s.accept i) := by
  cases h : checks i s with
  | none => exact .inr ⟨rfl, issued_of_pass h⟩
  | some r => exact .inl ⟨r, rfl, issued_of_fail h⟩

@[simp] theorem andThen_next : andThen (.next s) k = k s := rfl
@[simp] theorem andThen_fault (f : Fault) : andThen (.fault f) k = .fault f := rfl
@[simp] theorem andThen_refused (r : Refusal) : andThen (.refused r) k = .refused r := rfl

theorem andThen_eq_next {r : Result} : andThen r k = .next t ↔ ∃ s, r = .next s ∧ k s = .next t := by
  cases r <;> simp [andThen]

theorem andThen_assoc (r : Result) (k l : State → Result) :
    andThen (andThen r k) l = andThen r fun s => andThen (k s) l := by
  cases r <;> rfl

section InPop
variable {k : Option Byte → State → Result} {rest : List Item}

theorem inPop_nil (h : s.inq = []) : inPop s k = .next s := by simp [inPop, h]

theorem inPop_byte {b : Byte} (h : s.inq = .byte b :: rest) : inPop s k = k (some b) (s.popped (.byte b) rest) := by
  simp [inPop, h]

theorem inPop_eos (h : s.inq = .eos :: rest) : inPop s k = k none (s.popped .eos rest) := by simp [inPop, h]

theorem inPop_fail (h : s.inq = .fail :: rest) : inPop s k = .next ((s.popped .fail rest).raise .ioSource) := by
  simp [inPop, h]

/-- What InPop can do: wait, give a byte, give EOS, raise Err(IO, 1) (R67). -/
theorem inPop_cases (s : State) (k : Option Byte → State → Result) :
    (s.inq = [] ∧ inPop s k = .next s) ∨
    (∃ b rest, s.inq = .byte b :: rest ∧ inPop s k = k (some b) (s.popped (.byte b) rest)) ∨
    (∃ rest, s.inq = .eos :: rest ∧ inPop s k = k none (s.popped .eos rest)) ∨
    (∃ rest, s.inq = .fail :: rest ∧ inPop s k = .next ((s.popped .fail rest).raise .ioSource)) := by
  rcases h : s.inq with _ | ⟨it, rest⟩
  · exact .inl ⟨rfl, inPop_nil h⟩
  · cases it with
    | byte b => exact .inr (.inl ⟨b, rest, rfl, inPop_byte h⟩)
    | eos => exact .inr (.inr (.inl ⟨rest, rfl, inPop_eos h⟩))
    | fail => exact .inr (.inr (.inr ⟨rest, rfl, inPop_fail h⟩))

end InPop

section OutPush
variable {b : Byte}

theorem outPush_waits (h : s.nextAnswer = none) : outPush b s k = .next s := by simp [outPush, h]

theorem outPush_ok (h : s.nextAnswer = some .ok) : outPush b s k = k (s.pushed b) := by simp [outPush, h]

theorem outPush_fail (h : s.nextAnswer = some .fail) : outPush b s k = .next (s.answered.raise .ioSink) := by
  simp [outPush, h]

/-- What OutPush can do: wait, deliver the byte, raise Err(IO, 2) (R68). -/
theorem outPush_cases (b : Byte) (s : State) (k : State → Result) :
    (s.nextAnswer = none ∧ outPush b s k = .next s) ∨
    (s.nextAnswer = some .ok ∧ outPush b s k = k (s.pushed b)) ∨
    (s.nextAnswer = some .fail ∧ outPush b s k = .next (s.answered.raise .ioSink)) := by
  rcases h : s.nextAnswer with _ | a
  · exact .inl ⟨rfl, outPush_waits h⟩
  · cases a with
    | ok => exact .inr (.inl ⟨rfl, outPush_ok h⟩)
    | fail => exact .inr (.inr ⟨rfl, outPush_fail h⟩)

end OutPush

/-- The next answer depends on the sink's part of the state only. -/
theorem nextAnswer_congr (h : t.sinkAnswers = s.sinkAnswers) (h' : t.sinkThen = s.sinkThen) :
    t.nextAnswer = s.nextAnswer := by simp [State.nextAnswer, h, h']

@[simp] theorem busy_of_idle (h : s.phase = .idle) : s.busy = false := by simp [State.busy, h]

theorem busy_iff : s.busy = true ↔ s.phase ≠ .idle := by simp [State.busy]

end Sys2Proof.Machine
end

