-- ==== Sys2Proof/Laws/CoreTurn.lean ====
section
/-! SUPPORT. The laws of the micro-steps: one equation per phase, and how a run of micro-steps is made of shorter ones. -/

namespace Sys2Proof.Machine

variable {s t : State}

theorem micro_idle (h : s.phase = .idle) : micro s = .next s := by simp [micro, h]
theorem micro_profPop (h : s.phase = .profPop) : micro s = profMicro s := by simp [micro, h]
theorem micro_serPush {todo} (h : s.phase = .serPush todo) : micro s = serMicro todo s := by simp [micro, h]
theorem micro_desRoot (h : s.phase = .desRoot) : micro s = desRootMicro s := by simp [micro, h]
theorem micro_desTag {stack} (h : s.phase = .desTag stack) : micro s = desTagMicro stack s := by simp [micro, h]
theorem micro_desSym {stack} (h : s.phase = .desSym stack) : micro s = desSymMicro stack s := by simp [micro, h]
theorem micro_encPop (h : s.phase = .encPop) : micro s = encPopMicro s := by simp [micro, h]
theorem micro_encPush {v rest} (h : s.phase = .encPush v rest) : micro s = encPushMicro v rest s := by simp [micro, h]
theorem micro_encFlush (h : s.phase = .encFlush) : micro s = encFlushMicro s := by simp [micro, h]
theorem micro_decPop (h : s.phase = .decPop) : micro s = decPopMicro s := by simp [micro, h]
theorem micro_decPush {sym} (h : s.phase = .decPush sym) : micro s = decPushMicro sym s := by simp [micro, h]

@[simp] theorem runMicro_zero (s : State) : runMicro 0 s = .next s := rfl

theorem runMicro_succ (n : Nat) (s : State) :
    runMicro (n + 1) s = if s.enabled then andThen (micro s) (runMicro n) else .next s := rfl

theorem runMicro_disabled (h : s.enabled = false) (n : Nat) : runMicro n s = .next s := by
  cases n <;> simp [runMicro, h]

theorem enabled_idle (h : s.phase = .idle) : s.enabled = false := by simp [State.enabled, h]

theorem runMicro_idle (h : s.phase = .idle) (n : Nat) : runMicro n s = .next s := runMicro_disabled (enabled_idle h) n

theorem runMicro_enabled (h : s.enabled = true) (n : Nat) : runMicro (n + 1) s = andThen (micro s) (runMicro n) := by
  simp [runMicro, h]

/-- A run of a + b micro-steps is a run of a, then of b. -/
theorem runMicro_add (a b : Nat) (s : State) : runMicro (a + b) s = andThen (runMicro a s) (runMicro b) := by
  induction a generalizing s with
  | zero => simp
  | succ a ih =>
    rw [Nat.add_right_comm, runMicro_succ, runMicro_succ]
    cases h : s.enabled with
    | false => simp [runMicro_disabled h]
    | true =>
      simp only [if_true, andThen_assoc]
      cases micro s <;> simp [ih]

/-- What every micro-step keeps, every run of micro-steps keeps. -/
theorem runMicro_keeps {P : State → Prop} (step : ∀ s t, P s → micro s = .next t → P t) (n : Nat) (h : P s)
    (run : runMicro n s = .next t) : P t := by
  induction n generalizing s with
  | zero => cases run; exact h
  | succ n ih =>
    rw [runMicro_succ] at run
    split at run
    · obtain ⟨u, hu, hr⟩ := andThen_eq_next.1 run
      exact ih (step _ _ h hu) hr
    · cases run; exact h

/-- A relation to the start that every micro-step extends, every run of micro-steps has. -/
theorem runMicro_relates {R : State → State → Prop} (refl : ∀ s, R s s)
    (step : ∀ s t u, R s t → micro t = .next u → R s u) (n : Nat) (run : runMicro n s = .next t) : R s t :=
  runMicro_keeps (P := R s) (fun a b => step s a b) n (refl s) run

end Sys2Proof.Machine
end

