-- ==== Sys2Proof/Laws/Decode.lean ====
section
/-! SUPPORT. The fields of an assembled command word are the fields it was assembled from (30_encoding.md R90). -/

namespace Sys2Proof

theorem opc_word (i : Instr) : i.word.extractLsb' 24 8 = i.opcode := by
  apply BitVec.eq_of_getLsbD_eq
  intro k hk
  simp only [Instr.word, BitVec.getLsbD_extractLsb', BitVec.getLsbD_append]
  have h1 : ¬(24 + k < 16) := by omega
  have h2 : ¬(24 + k - 16 < 8) := by omega
  have h3 : 24 + k - 16 - 8 = k := by omega
  simp [hk, h1, h2, h3]

theorem sel_word (i : Instr) : selOf i.word = i.sel := by
  apply BitVec.eq_of_getLsbD_eq
  intro k hk
  simp only [selOf, Instr.word, BitVec.getLsbD_extractLsb', BitVec.getLsbD_append]
  have h1 : ¬(16 + k < 16) := by omega
  have h2 : 16 + k - 16 < 8 := by omega
  have h3 : 16 + k - 16 = k := by omega
  simp [hk, h1, h3]

theorem idx_word (i : Instr) : idxOf i.word = i.idx := by
  apply BitVec.eq_of_getLsbD_eq
  intro k hk
  simp only [idxOf, Instr.word, BitVec.getLsbD_extractLsb', BitVec.getLsbD_append]
  simp [hk]

/-- A decoded word came from a row of the opcode map that selects it. -/
theorem decode_row {cw : Word} {wdata : Data} {i : Instr} (h : decode cw wdata = .ok i) :
    ∃ r ∈ opcodeMap, r.selects cw = true ∧ assembleOperands r.op cw wdata = .ok i := by
  unfold decode at h
  split at h
  · simp at h
  · next r hr => exact ⟨r, List.mem_of_find?_eq_some hr, by simpa using List.find?_some hr, h⟩

/-- The operands of a row give a command of that row. -/
theorem op_of_assembleOperands {op : Op} {cw : Word} {wdata : Data} {i : Instr}
    (h : assembleOperands op cw wdata = .ok i) : i.op = op := by
  cases op <;> simp only [assembleOperands] at h
  case tdes => split at h <;> simp_all; subst h; rfl
  case rdc => split at h <;> simp_all; subst h; rfl
  all_goals injection h with h; subst h; rfl

end Sys2Proof
end

