-- ==== Sys2Proof/Laws/Exec.lean ====
section
/-! SUPPORT. When each command passes its checks, from the flags alone (30_encoding.md R96, R97), and what the step can do. -/

namespace Sys2Proof.Machine

variable {s t : State}

theorem pass_clr (h : s.phase = .idle) : checks .clr s = none := by
  simp [checks_eq_none, Instr.wf, busy_of_idle h, seqOk, rangeOk]

theorem pass_prof (h : s.phase = .idle) (he : s.err = false) (hf : s.fv = false) (ht : s.tv = false) :
    checks .prof s = none := by
  simp [checks_eq_none, Instr.wf, busy_of_idle h, seqOk, rangeOk, he, hf, ht]

theorem pass_ldf {sym : Idx} {count : Data} (h : s.phase = .idle) (he : s.err = false) (ht : s.tv = false)
    (hs : sym.toNat ≤ 255) (hc : ldfTotal (symbolOf sym) count s < 2 ^ 64) : checks (.ldf sym count) s = none := by
  rw [checks_eq_none]
  refine ⟨rfl, .inl (busy_of_idle h), by simp [seqOk, he, ht], ?_⟩
  simp only [rangeOk, Bool.and_eq_true, decide_eq_true_eq]
  exact ⟨hs, hc⟩

theorem pass_build (h : s.phase = .idle) (he : s.err = false) (hf : s.fv = true) (ht : s.tv = false) :
    checks .build s = none := by
  simp [checks_eq_none, Instr.wf, busy_of_idle h, seqOk, rangeOk, he, hf, ht]

theorem pass_gen (h : s.phase = .idle) (he : s.err = false) (ht : s.tv = true) (hb : s.bv = false) :
    checks .gen s = none := by
  simp [checks_eq_none, Instr.wf, busy_of_idle h, seqOk, rangeOk, he, hb, ht]

theorem pass_tser (h : s.phase = .idle) (he : s.err = false) (ht : s.tv = true) : checks .tser s = none := by
  simp [checks_eq_none, Instr.wf, busy_of_idle h, seqOk, rangeOk, he, ht]

theorem pass_tdes {shape : BitVec 2} (hw : shape ≠ 3) (h : s.phase = .idle) (he : s.err = false) (hf : s.fv = false)
    (ht : s.tv = false) : checks (.tdes shape) s = none := by
  have hw' : ¬shape = 3#2 := hw
  simp [checks_eq_none, Instr.wf, busy_of_idle h, seqOk, rangeOk, he, hf, ht, hw']

theorem pass_enc (h : s.phase = .idle) (he : s.err = false) (hb : s.bv = true) (hf : s.fin = false) :
    checks .enc s = none := by
  simp [checks_eq_none, Instr.wf, busy_of_idle h, seqOk, rangeOk, he, hf, hb]

theorem pass_dec {n : Data} (h : s.phase = .idle) (he : s.err = false) (ht : s.tv = true) (hf : s.fin = false) :
    checks (.dec n) s = none := by
  simp [checks_eq_none, Instr.wf, busy_of_idle h, seqOk, rangeOk, he, hf, ht]

/-- What a step can do: the core's micro-step where the host has no move to come, else the host's next move (R10). -/
theorem step_cases (s : State) :
    (s.moves = [] ∧ step s = micro s) ∨
      ∃ m rest, s.moves = m :: rest ∧ step s = takeMove m { s with moves := rest } := by
  rcases h : s.moves with _ | ⟨m, rest⟩
  · exact .inl ⟨rfl, by simp [step, nextMove, h]⟩
  · exact .inr ⟨m, rest, rfl, by simp [step, nextMove, h]⟩

/-- What issuing a word can do: REJ_ILLEGAL, or the command it decodes to (R96). -/
theorem issueWord_cases (cw : Word) (wdata : Data) (s : State) :
    (∃ e, decode cw wdata = .error e ∧ issueWord cw wdata s = .next (s.respond rejIllegal 0)) ∨
      ∃ i, decode cw wdata = .ok i ∧ issueWord cw wdata s = exec i s := by
  rcases h : decode cw wdata with e | i
  · exact .inl ⟨e, rfl, by simp [issueWord, h, reject]⟩
  · exact .inr ⟨i, rfl, by simp [issueWord, h]⟩

end Sys2Proof.Machine
end

