-- ==== Sys2Proof/Laws/PerInstr.lean ====
section
/-! SUPPORT. Statements made per command: one lemma per constructor of Instr. -/

namespace Sys2Proof.Laws.OwnRow

/-- The row of the opcode map with the command's own mnemonic. -/
def rowOf (i : Instr) : Option Row := opcodeMap.find? fun r => r.op == i.op

/-- The word of a legal command is selected by the command's own row (R94). -/
def Statement (i : Instr) : Prop := i.wf = true → ∃ r, rowOf i = some r ∧ r.selects i.word = true

/-- A row that masks no bit of the lower half selects by the upper half (R94). -/
theorem selects_half {op : Op} {hi mask pattern : BitVec 16} {p m : Word} (h : hi &&& mask = pattern)
    (hp : p = pattern ++ 0#16) (hm : m = mask ++ 0#16) (lo : Idx) :
    Row.selects ⟨op, p, m⟩ (hi ++ lo) = true := by
  have e : (hi ++ lo) &&& (mask ++ 0#16) = (hi &&& mask) ++ (lo &&& 0#16) := BitVec.and_append
  subst h hp hm
  simp only [Row.selects, beq_iff_eq]
  exact e.trans (by rw [BitVec.and_zero])

theorem rdn_half : ∀ sel : Byte, sel.toNat < 2 → (0x62#8 ++ sel) &&& 0xFFFE#16 = 0x6200#16 := by decide +kernel

theorem rdc_half : ∀ sel : Byte, sel.toNat < 5 → (0x63#8 ++ sel) &&& 0xFFF8#16 = 0x6300#16 := by decide +kernel

theorem clr : Statement .clr := by
  intro _; exact ⟨⟨.clr, 0x01000000#32, 0xFFFFFFFF#32⟩, rfl, rfl⟩

theorem prof : Statement .prof := by
  intro _; exact ⟨⟨.prof, 0x10000000#32, 0xFFFFFFFF#32⟩, rfl, rfl⟩

theorem ldf (sym : Idx) (count : Data) : Statement (.ldf sym count) := by
  intro _
  exact ⟨⟨.ldf, 0x11000000#32, 0xFFFF0000#32⟩, rfl, selects_half (hi := 0x11#8 ++ 0#8) (pattern := 0x1100#16) (mask := 0xFFFF#16)
    (by decide) (by decide) (by decide) sym⟩

theorem build : Statement .build := by
  intro _; exact ⟨⟨.build, 0x20000000#32, 0xFFFFFFFF#32⟩, rfl, rfl⟩

theorem gen : Statement .gen := by
  intro _; exact ⟨⟨.gen, 0x30000000#32, 0xFFFFFFFF#32⟩, rfl, rfl⟩

theorem tser : Statement .tser := by
  intro _; exact ⟨⟨.tser, 0x40000000#32, 0xFFFFFFFF#32⟩, rfl, rfl⟩

theorem tdes (shape : BitVec 2) : Statement (.tdes shape) := by
  revert shape; unfold Statement; decide

theorem enc : Statement .enc := by
  intro _; exact ⟨⟨.enc, 0x50000000#32, 0xFFFFFFFF#32⟩, rfl, rfl⟩

theorem dec_selects : Row.selects ⟨.dec, 0x51000000#32, 0xFFFFFFFF#32⟩ (0x51#8 ++ 0#8 ++ 0#16) = true := by decide

theorem dec (expected : Data) : Statement (.dec expected) := by
  intro _; exact ⟨⟨.dec, 0x51000000#32, 0xFFFFFFFF#32⟩, rfl, dec_selects⟩

theorem rdr (reg : Idx) : Statement (.rdr reg) := by
  intro _
  exact ⟨⟨.rdr, 0x60000000#32, 0xFFFF0000#32⟩, rfl, selects_half (hi := 0x60#8 ++ 0#8) (pattern := 0x6000#16) (mask := 0xFFFF#16)
    (by decide) (by decide) (by decide) reg⟩

theorem rdf (sym : Idx) : Statement (.rdf sym) := by
  intro _
  exact ⟨⟨.rdf, 0x61000000#32, 0xFFFF0000#32⟩, rfl, selects_half (hi := 0x61#8 ++ 0#8) (pattern := 0x6100#16) (mask := 0xFFFF#16)
    (by decide) (by decide) (by decide) sym⟩

theorem rdn (sel : Byte) (idx : Idx) : Statement (.rdn sel idx) := by
  intro h
  exact ⟨⟨.rdn, 0x62000000#32, 0xFFFE0000#32⟩, rfl,
    selects_half (rdn_half sel (by simpa [Instr.wf] using h)) (by decide) (by decide) idx⟩

theorem rdc (sel : Byte) (sym : Idx) : Statement (.rdc sel sym) := by
  intro h
  exact ⟨⟨.rdc, 0x63000000#32, 0xFFF80000#32⟩, rfl,
    selects_half (rdc_half sel (by simpa [Instr.wf] using h)) (by decide) (by decide) sym⟩

end Sys2Proof.Laws.OwnRow
end

