-- ==== Sys2Proof/Laws/Tables.lean ====
section
/-! SUPPORT. The laws of the 256-entry tables and of their index set: read after write, equality entry by entry, the symbols. -/

namespace Sys2Proof.Machine

variable {α : Type}

theorem entry_eq_getElem (t : Vector α 256) (b : Byte) : entry t b = t[b.toNat]'b.isLt := rfl

@[simp] theorem entry_setEntry_same (t : Vector α 256) (b : Byte) (x : α) : entry (setEntry t b x) b = x := by
  simp [entry, setEntry]

theorem entry_setEntry_ne (t : Vector α 256) {a b : Byte} (x : α) (h : a ≠ b) :
    entry (setEntry t b x) a = entry t a := by
  have h' : b.toNat ≠ a.toNat := fun e => h (BitVec.eq_of_toNat_eq e.symm)
  simp [entry, setEntry, Vector.getElem_set_ne _ _ h']

theorem entry_setEntry (t : Vector α 256) (a b : Byte) (x : α) :
    entry (setEntry t b x) a = if a = b then x else entry t a := by
  split
  · next h => subst h; simp
  · next h => exact entry_setEntry_ne t x h

@[simp] theorem entry_replicate (x : α) (b : Byte) : entry (Vector.replicate 256 x) b = x := by
  simp [entry]

@[simp] theorem entry_ofFn (f : Fin 256 → α) (b : Byte) : entry (Vector.ofFn f) b = f ⟨b.toNat, b.isLt⟩ := by
  simp [entry]

/-- Two tables are equal when they agree at every symbol. -/
theorem table_ext {t u : Vector α 256} (h : ∀ b : Byte, entry t b = entry u b) : t = u := by
  apply Vector.ext
  intro i hi
  have hb := h (BitVec.ofNat 8 i)
  have e : (BitVec.ofNat 8 i).toNat = i := by simp; omega
  simpa [entry, e] using hb

@[simp] theorem setEntry_setEntry (t : Vector α 256) (b : Byte) (x y : α) :
    setEntry (setEntry t b x) b y = setEntry t b y := by
  apply table_ext
  intro a
  by_cases h : a = b <;> simp [entry_setEntry, h]

@[simp] theorem mem_symbols (b : Byte) : b ∈ symbols := by
  refine List.mem_map.2 ⟨b.toNat, List.mem_range.2 b.isLt, ?_⟩
  simp

@[simp] theorem length_symbols : symbols.length = 256 := by simp [symbols]

theorem nodup_symbols : symbols.Nodup := by
  refine List.Nodup.map_on ?_ List.nodup_range
  intro x hx y hy h
  have := congrArg BitVec.toNat h
  simp only [List.mem_range] at hx hy
  simpa [Nat.mod_eq_of_lt hx, Nat.mod_eq_of_lt hy] using this

/-- An index operand in range stands for the symbol of that number. -/
@[simp] theorem symbolOf_setWidth (b : Byte) : symbolOf (b.setWidth 16) = b := by
  apply BitVec.eq_of_toNat_eq
  have := b.isLt
  simp [symbolOf]

theorem toNat_setWidth_symbol (b : Byte) : (b.setWidth 16 : Idx).toNat = b.toNat := by
  have := b.isLt
  simp
  omega

end Sys2Proof.Machine
end

