-- ==== Sys2Proof/Laws/Units.lean ====
section
/-! SUPPORT. What the pieces of the units can do: insertion into PQ and merging, the code of a path, Des() returning, bits put
and taken. -/

namespace Sys2Proof.Machine

variable {s t : State}

/-- Insert adds x and nothing else (R142). -/
theorem insertPq_perm (nodes : List Node) (pq : List NodeIdx) (x : NodeIdx) : (insertPq nodes pq x).Perm (x :: pq) := by
  unfold insertPq
  exact List.perm_middle.trans (.cons x (by rw [List.take_append_drop]))

@[simp] theorem length_insertPq (nodes : List Node) (pq : List NodeIdx) (x : NodeIdx) :
    (insertPq nodes pq x).length = pq.length + 1 := (insertPq_perm nodes pq x).length_eq

theorem merge_cons {f : Forest} {a b : NodeIdx} {rest : List NodeIdx} (h : f.pq = a :: b :: rest) :
    f.merge = ⟨f.nodes ++ [.internal (weightAt f.nodes a + weightAt f.nodes b) a b],
      insertPq (f.nodes ++ [.internal (weightAt f.nodes a + weightAt f.nodes b) a b]) rest
        (BitVec.ofNat 9 f.nodes.length)⟩ := by
  simp [Forest.merge, h]

/-- A merge makes one node of two (R143). -/
theorem length_merge {f : Forest} (h : 1 < f.pq.length) :
    f.merge.nodes.length = f.nodes.length + 1 ∧ f.merge.pq.length + 1 = f.pq.length := by
  match hp : f.pq with
  | [] => simp [hp] at h
  | [_] => simp [hp] at h
  | a :: b :: rest => simp [merge_cons hp]

/-- The entries a merge does not make stay where they are (R143). -/
theorem merge_getElem? {f : Forest} (k : Nat) (hk : k < f.nodes.length) : f.merge.nodes[k]? = f.nodes[k]? := by
  unfold Forest.merge
  split
  · simp [List.getElem?_append_left hk]
  · rfl

/-- The weights of old entries are the same in a longer table. -/
theorem weightAt_append {nodes more : List Node} {i : NodeIdx} (h : i.toNat < nodes.length) :
    weightAt (nodes ++ more) i = weightAt nodes i := by
  simp [weightAt, nodeAt, List.getElem?_append_left h]

/-- The top bit alone has no bit below it. -/
theorem getMsbD_topBit (k : Nat) (hk : k + 1 < 256) : (1#256 <<< 255).getMsbD (k + 1) = false := by
  rw [BitVec.getMsbD, BitVec.getLsbD_shiftLeft]
  simp
  omega

/-- Bit k of a left-justified sequence is its k-th element, and 0 beyond its end (R32). -/
theorem getMsbD_leftJustified (q : List Bool) (k : Nat) (hk : k < 256) :
    (leftJustified q).getMsbD k = q.getD k false := by
  induction q generalizing k with
  | nil => simp [leftJustified]
  | cons b bs ih =>
    simp only [leftJustified, BitVec.getMsbD_or, BitVec.getMsbD_ushiftRight]
    cases k with
    | zero => cases b <;> simp
    | succ k =>
      have h0 : (if b then 1#256 <<< 255 else 0).getMsbD (k + 1) = false := by
        cases b
        · simp
        · exact getMsbD_topBit k hk
      rw [h0]
      simp [hk, ih k (by omega)]

/-- The code stored for a path of at most 255 bits is that path (R32, R161). -/
theorem path_ofPath (q : List Bool) (hq : q.length ≤ 255) : (Code.ofPath q).path = q := by
  have hlen : (BitVec.ofNat 8 q.length).toNat = q.length := by simp; omega
  apply List.ext_getElem
  · simp [Code.path, Code.ofPath, hlen]
  · intro k h1 h2
    have : (leftJustified q).getMsbD k = q.getD k false := getMsbD_leftJustified q k (by omega)
    simp [Code.path, Code.ofPath, this, h2]

@[simp] theorem len_ofPath (q : List Bool) (hq : q.length ≤ 255) : (Code.ofPath q).len.toNat = q.length := by
  simp [Code.ofPath]; omega

/-- Bits beyond the length of a stored path are 0 (R32). -/
theorem tidy_ofPath (q : List Bool) (k : Nat) (hl : q.length ≤ k) (hk : k < 256) :
    (Code.ofPath q).bits.getMsbD k = false := by
  rw [Code.ofPath, getMsbD_leftJustified q k hk, List.getD_eq_default _ _ hl]

/-- What Des() returning can do: the tree is read and the command complete, or the next tag is to be read (R177). -/
theorem desReturn_phase (r : NodeIdx) (stack : List DesFrame) (s : State) :
    (desReturn r stack s).phase = .idle ∧ (desReturn r stack s).tv = true ∨
      ∃ rest, (desReturn r stack s).phase = .desTag rest ∧ (desReturn r stack s).tv = s.tv := by
  induction stack generalizing r s with
  | nil => exact .inl ⟨rfl, rfl⟩
  | cons f stack ih =>
    cases f with
    | lone => exact .inl ⟨rfl, rfl⟩
    | left i => exact .inr ⟨_, rfl, rfl⟩
    | right i => simpa [desReturn] using ih i (s.modifyNode i (Node.withRight r))

/-- Des() returning defines no new entry (R177). -/
theorem desReturn_length (r : NodeIdx) (stack : List DesFrame) (s : State) :
    (desReturn r stack s).nodes.length = s.nodes.length := by
  induction stack generalizing r s with
  | nil => rfl
  | cons f stack ih =>
    cases f with
    | lone => simp [desReturn]
    | left i => simp [desReturn]
    | right i => rw [desReturn, ih]; simp

/-- What putting bits can do: a full group waits in OutPush, or all bits are put and ENC is at its next InPop (R201, R202). -/
theorem putBits_phase (bits : List Bool) (s : State) :
    (∃ v rest, v :: rest <:+ bits ∧ (putBits bits s).phase = .encPush v rest ∧ (putBits bits s).nacc = 7) ∨
      (putBits bits s).phase = .encPop := by
  induction bits generalizing s with
  | nil => exact .inr rfl
  | cons v rest ih =>
    unfold putBits
    split
    · next h => exact .inl ⟨v, rest, List.suffix_rfl, rfl, h⟩
    · rcases ih (s.putBit v) with ⟨w, r, hr, h⟩ | h
      · exact .inl ⟨w, r, hr.trans (List.suffix_cons v rest), h⟩
      · exact .inr h

theorem shiftedIn_toNat (v : Bool) (s : State) (h : s.acc.toNat < 128) :
    (s.shiftedIn v).toNat = 2 * s.acc.toNat + v.toNat := by
  have e : s.acc <<< 1 ||| (BitVec.ofBool v).setWidth 8 = (s.acc <<< 1) + (BitVec.ofBool v).setWidth 8 := by
    have : ∀ (a : Byte) (v : Bool), a <<< 1 ||| (BitVec.ofBool v).setWidth 8 = (a <<< 1) + (BitVec.ofBool v).setWidth 8 := by
      decide +kernel
    exact this s.acc v
  rw [State.shiftedIn, e]
  cases v <;> simp [BitVec.toNat_add, BitVec.toNat_shiftLeft, Nat.shiftLeft_eq] <;> omega

/-- Putting bits keeps ACC clear at and above NACC (R35). -/
theorem putBits_acc (bits : List Bool) (s : State) (h : s.acc.toNat < 2 ^ s.nacc.toNat) :
    (putBits bits s).acc.toNat < 2 ^ (putBits bits s).nacc.toNat := by
  induction bits generalizing s with
  | nil => exact h
  | cons v rest ih =>
    unfold putBits
    split
    · exact h
    · next hn =>
      refine ih _ ?_
      have h7 : s.nacc.toNat ≠ 7 := fun e => hn (BitVec.eq_of_toNat_eq e)
      have hn1 : (s.nacc + 1).toNat = s.nacc.toNat + 1 := by rw [BitVec.toNat_add]; simp; omega
      have ha : s.acc.toNat < 128 :=
        h.trans_le (Nat.pow_le_pow_right (n := 2) (by decide) (show s.nacc.toNat ≤ 7 by omega))
      rw [State.putBit_nacc, hn1, show (s.putBit v).acc = s.shiftedIn v from rfl, shiftedIn_toNat v s ha, pow_succ]
      have := v.toNat_le
      omega

/-- Putting bits touches ACC, NACC and the phase only (R202). -/
theorem putBits_frame (bits : List Bool) (s : State) :
    putBits bits s = { s with acc := (putBits bits s).acc, nacc := (putBits bits s).nacc, phase := (putBits bits s).phase } := by
  induction bits generalizing s with
  | nil => rfl
  | cons v rest ih =>
    unfold putBits
    split
    · rfl
    · rw [ih]; rfl

section Walk
variable {k : State → Result}

/-- What a walk to a child can do: stop at an undefined entry, raise Err(CORRUPT, 1), find a symbol, go on (R206). -/
theorem walkTo_cases (child : NodeIdx) (s : State) (k : State → Result) :
    walkTo child s k = .fault .undefinedNode ∨ walkTo child s k = .next (s.raise .noChild) ∨
      (∃ sym, walkTo child s k = .next { s with cur := child, phase := .decPush sym }) ∨
      walkTo child s k = k { s with cur := child } := by
  unfold walkTo
  split
  · exact .inr (.inl rfl)
  · split
    · exact .inl rfl
    · exact .inr (.inr (.inl ⟨_, rfl⟩))
    · exact .inr (.inr (.inr rfl))

/-- What one bit of the walk can do: the same (R206). -/
theorem walkBit_cases (v : Bool) (s : State) (k : State → Result) :
    walkBit v s k = .fault .undefinedNode ∨ walkBit v s k = .next (s.raise .noChild) ∨
      (∃ cur sym, walkBit v s k = .next { s with cur := cur, phase := .decPush sym }) ∨
      ∃ cur, walkBit v s k = k { s with cur := cur } := by
  unfold walkBit
  split
  · exact .inl rfl
  · split
    · exact .inr (.inl rfl)
    · exact .inr (.inr (.inl ⟨s.cur, _, rfl⟩))
  · next l r _ =>
    rcases walkTo_cases (if v then r else l) s k with h | h | ⟨sym, h⟩ | h
    · exact .inl h
    · exact .inr (.inl h)
    · exact .inr (.inr (.inl ⟨_, sym, h⟩))
    · exact .inr (.inr (.inr ⟨_, h⟩))

end Walk

/-- What a walk of the decoder's tree can do within the bits it has, when it stops with no fault: raise Err(CORRUPT, 1), find a
symbol, or run out of bits; it touches DBYTE, DBITS, CUR, the phase and the error latch only (R205, R206). -/
theorem decBits_cases (n : Nat) (s t : State) (h : decBits n s = .next t) :
    ∃ dbyte dbits cur, let u : State := { s with dbyte := dbyte, dbits := dbits, cur := cur }
      t = u.raise .noChild ∨ (∃ sym, t = { u with phase := .decPush sym }) ∨ t = { u with phase := .decPop } := by
  induction n generalizing s with
  | zero => cases h; exact ⟨s.dbyte, s.dbits, s.cur, .inr (.inr rfl)⟩
  | succ n ih =>
    rw [decBits] at h
    rcases walkBit_cases s.dbyte.msb s.bitTaken (decBits n) with e | e | ⟨c, sym, e⟩ | ⟨c, e⟩ <;> rw [e] at h
    · cases h
    · cases h; exact ⟨_, _, s.cur, .inl rfl⟩
    · cases h; exact ⟨_, _, c, .inr (.inl ⟨sym, rfl⟩)⟩
    · obtain ⟨x, y, z, hz⟩ := ih { s.bitTaken with cur := c } h
      exact ⟨x, y, z, hz⟩

end Sys2Proof.Machine
end

