-- ==== Sys2Proof/Tests/Slice0.lean ====
section
/-! SUPPORT. Tests: the well-formedness smoke test, words written out from the opcode map of 30_encoding.md R94, one-step
results of spec/95_test_vectors.md (the vector stands above each), and a witness for the hypotheses of every statement. -/

namespace Sys2Proof.Tests

set_option Elab.async false

open Sys2Proof.Machine Sys2Proof.Safety

/-! ### Helpers -/

/-- A view of the next state, where there is one. -/
def view {α : Type} (r : Result) (f : State → α) : Option α :=
  match r with
  | .next s => some (f s)
  | .fault _ => none
  | .refused _ => none

theorem exists_of_view {α : Type} {r : Result} {f : State → α} {a : α} (h : view r f = some a) :
    ∃ t, r = .next t ∧ f t = a := by
  cases r with
  | next t => exact ⟨t, rfl, by simpa [view] using h⟩
  | fault _ => cases h
  | refused _ => cases h

/-- The RESPs given. -/
def resps (s : State) : List (BitVec 4) := s.rsps.map Response.resp

/-- "AAAABBBCCD" (95_test_vectors.md V1). -/
def scenario : List Byte := [0x41, 0x41, 0x41, 0x41, 0x42, 0x42, 0x42, 0x43, 0x43, 0x44]

/-- Data items, then more. -/
def fed (bytes : List Byte) (rest : List Item) (s : State) : State := { s with inq := bytes.map .byte ++ rest }

/-- Reset with the counts A 4, B 3, C 2, D 1. -/
def counted : State :=
  { State.reset with
    fv := true, total := 10
    freq := setEntry (setEntry (setEntry (setEntry State.reset.freq 0x41 4) 0x42 3) 0x43 2) 0x44 1 }

/-- Reset with two counts of 1. -/
def pair : State :=
  { State.reset with fv := true, total := 2, freq := setEntry (setEntry State.reset.freq 0x41 1) 0x42 1 }

/-- Reset with the tree V1 builds. -/
def treed : State :=
  { State.reset with
    tv := true, shape := 2, nsym := 4, root := 6
    nodes := [.leaf 0x41 4, .leaf 0x42 3, .leaf 0x43 2, .leaf 0x44 1, .internal 3 3 2, .internal 6 1 4,
      .internal 10 0 5] }

/-- The same with the codes A 0, B 10, C 111, D 110. -/
def coded : State :=
  { treed with
    bv := true
    code := codeTable [(0x41, [false]), (0x42, [true, false]), (0x44, [true, true, false]), (0x43, [true, true, true])] }

/-- The tree of V1 as an abstract tree. -/
def scenarioTree : Shaped := .full (.node (.leaf 0x41) (.node (.leaf 0x42) (.node (.leaf 0x44) (.leaf 0x43))))

/-- Its serialized form (V1 step 4). -/
def scenarioBytes : List Byte := [0x01, 0x00, 0x41, 0x01, 0x00, 0x42, 0x01, 0x00, 0x44, 0x00, 0x43]

/-- A lone leaf under a right-absent root (V16). -/
def lone : State :=
  { State.reset with tv := true, shape := 1, nsym := 1, root := 0, nodes := [.internal 0 1 511, .leaf 0x41 0] }

/-- A busy PROF that waits. -/
def busyProf : State := { State.reset with curop := 0x10, phase := .profPop }

/-- An error latched: IO 1 of PROF (V3). -/
def failed : State := { State.reset with curop := 0x10, err := true, errcode := 1, errsub := 1 }

/-- After reset with one move to come. -/
def moved (m : Move) (s : State) : State := { s with moves := [m] }

/-! ### Well-formedness: every check refuses an ill-formed term (R98) -/

theorem test_wf_tdes : (Instr.tdes 3).wf = false ∧ (Instr.tdes 2).wf = true := by decide
theorem test_wf_rdn : (Instr.rdn 2 0).wf = false ∧ (Instr.rdn 1 0).wf = true := by decide
theorem test_wf_rdc : (Instr.rdc 5 0).wf = false ∧ (Instr.rdc 4 0).wf = true := by decide

/-! ### Words written out from R94 -/

theorem test_decode_system : decode 0x01000000 0 = .ok .clr ∧ decode 0x60000008 0 = .ok (.rdr 8) ∧
    decode 0x610000FF 0 = .ok (.rdf 255) ∧ decode 0x62010006 0 = .ok (.rdn 1 6) ∧
    decode 0x63040041 0 = .ok (.rdc 4 0x41) := by decide
theorem test_decode_profiler : decode 0x10000000 0 = .ok .prof ∧ decode 0x11000041 4 = .ok (.ldf 0x41 4) := by decide
theorem test_decode_builder : decode 0x20000000 0 = .ok .build ∧ decode 0x30000000 0 = .ok .gen := by decide
theorem test_decode_codec : decode 0x40000000 0 = .ok .tser ∧ decode 0x41000000 0 = .ok (.tdes 0) ∧
    decode 0x41000001 0 = .ok (.tdes 1) ∧ decode 0x41000002 0 = .ok (.tdes 2) := by decide
theorem test_decode_bitstream : decode 0x50000000 0 = .ok .enc ∧ decode 0x51000000 10 = .ok (.dec 10) := by decide

/-- The illegal words of V33. -/
theorem test_decode_illegal :
    ([0x00000000, 0xFFFFFFFF, 0x02000000, 0x12000000, 0x10000001, 0x01010000, 0x41000003, 0x41000004, 0x41010000,
      0x51000001, 0x51010000, 0x60010000, 0x62020000, 0x63050041, 0x11010041] : List Word).all
      (fun cw => (match decode cw 0 with | .ok _ => false | .error _ => true)) = true := by decide

/-- A command placed for the host is the first after reset: RDR 6 reads ROOT = 511 (R51). -/
theorem test_fetch : view (step (State.reset.withFetchWord 32 0x60000006)) State.rsps = some [⟨0, 511⟩] := by
  decide +kernel

/-! ### Results -/

/-- V38. -/
theorem test_clr : view (exec .clr coded) (fun s => (s.status, s.root, s.nnodes, (entry s.code 0x41).len, resps s))
    = some (0x10000, 511, 0, 0, [0]) := by decide +kernel
/-- V1 step 1. -/
theorem test_prof : view (exec .prof (fed scenario [.eos] State.reset))
    (fun s => (entry s.freq 0x41, entry s.freq 0x44, s.total, s.incnt, s.status)) = some (4, 1, 10, 10, 0x100002) := by
  decide +kernel
/-- V3. -/
theorem test_prof_fails : view (exec .prof (fed [0x41, 0x42] [.fail, .byte 0x43, .eos] State.reset))
    (fun s => (s.total, s.incnt, s.status, s.inq)) = some (2, 2, 0x101120, [.byte 0x43, .eos]) := by decide +kernel
/-- V5. -/
theorem test_ldf : view (exec (.ldf 0x41 4) State.reset) (fun s => (entry s.freq 0x41, s.total, s.status))
    = some (4, 4, 0x110002) := by decide +kernel
/-- V6: replacing a count, after PROF of "AAB". -/
theorem test_ldf_replaces : view (exec (.ldf 0x42 0) { counted with incnt := 3 })
    (fun s => (entry s.freq 0x42, s.total, s.incnt)) = some (0, 7, 3) := by decide +kernel
/-- V1 step 2. -/
theorem test_build : view (exec .build counted) (fun s => (s.nodes, s.root, s.nnodes, s.nsym, s.shape))
    = some (treed.nodes, 6, 7, 4, 2) := by decide +kernel
/-- V10: a merged node goes behind a leaf of equal weight. -/
theorem test_build_tie : view (exec .build { State.reset with
      fv := true, freq := setEntry (setEntry (setEntry State.reset.freq 0x61 1) 0x62 1) 0x63 2 })
    (fun s => s.nodes.drop 3) = some [.internal 2 0 1, .internal 4 2 3] := by decide +kernel
/-- V1 step 3. -/
theorem test_gen : view (exec .gen treed) (fun s => (s.code, s.bv, s.curop)) = some (coded.code, true, 0x30) := by
  decide +kernel
/-- V24: the later of two leaves with one symbol. -/
theorem test_gen_repeated : view (exec .gen { treed with root := 0, nodes := [.internal 0 1 2, .leaf 0x41 0, .leaf 0x41 0] })
    (fun s => (entry s.code 0x41).path) = some [true] := by decide +kernel
/-- V1 step 4. -/
theorem test_tser : view (exec .tser treed) (fun s => (s.outq, s.incnt, s.outcnt)) = some (scenarioBytes, 0, 11) := by
  decide +kernel
/-- V20 (c). -/
theorem test_tser_fails : view (exec .tser { treed with sinkAnswers := [.ok, .ok, .ok, .ok, .fail] })
    (fun s => (s.outq, s.outcnt, s.errcode, s.errsub)) = some ([0x01, 0x00, 0x41, 0x01], 4, 1, 2) := by decide +kernel
/-- V26. -/
theorem test_tdes : view (exec (.tdes 2) (fed scenarioBytes [.eos] State.reset))
    (fun s => (s.nodes, s.root, s.nsym, s.status, s.inq)) =
    some ([.internal 0 1 2, .leaf 0x41 0, .internal 0 3 4, .leaf 0x42 0, .internal 0 5 6, .leaf 0x44 0, .leaf 0x43 0],
      0, 4, 0x410084, [.eos]) := by decide +kernel
/-- V27. -/
theorem test_tdes_bad_tag : view (exec (.tdes 2) (fed [0x01, 0x00, 0x41, 0x02, 0x42] [.eos] State.reset))
    (fun s => (s.nodes, s.nsym, s.root, s.incnt, s.status)) =
    some ([.internal 0 1 511, .leaf 0x41 0], 1, 511, 4, 0x411220) := by decide +kernel
/-- V1 step 5; and (R35, V19) ENC of "DDD" that waits to push its first group, 0xDB, holds seven of its bits. -/
theorem test_enc : view (exec .enc (fed scenario [.eos] coded)) (fun s => (s.outq, s.incnt, s.outcnt, s.fin))
      = some ([0x0A, 0xBF, 0xC0], 10, 3, true) ∧
    view (exec .enc { fed [0x44, 0x44, 0x44] [.eos] coded with sinkThen := none }) (fun s => (s.phase, s.acc, s.nacc))
      = some (.encPush true [false], 0x6D, 7) := by decide +kernel
/-- V19: "DDDE". -/
theorem test_enc_no_code : view (exec .enc (fed [0x44, 0x44, 0x44, 0x45] [.eos] coded))
    (fun s => (s.outq, s.incnt, s.errcode, s.inq)) = some ([0xDB], 4, 4, [.eos]) := by decide +kernel
/-- V1 step 6. -/
theorem test_dec : view (exec (.dec 10) (fed [0x0A, 0xBF, 0xC0] [.eos] treed))
    (fun s => (s.outq, s.decoded, s.incnt, s.status, s.inq)) = some (scenario, 10, 3, 0x510094, [.eos]) := by decide +kernel
/-- V16; and V14 with 16 expected. -/
theorem test_dec_corrupt : view (exec (.dec 5) (fed [0x08] [.eos] lone)) (fun s => (s.outq, s.decoded, s.incnt, s.status))
      = some ([0x41, 0x41, 0x41, 0x41], 4, 1, 0x511364) ∧
    view (exec (.dec 16) (fed [0x0A, 0xBF, 0xC0] [.eos] treed)) (fun s => (s.decoded, s.status, resps s))
      = some (15, 0x5123A4, [1]) := by decide +kernel
/-- V4: STATUS of a waiting PROF, and TOTAL refused. -/
theorem test_rdr_busy : view (exec (.rdr 0) busyProf) State.rsps = some [⟨0, 0x100001⟩] ∧
    view (exec (.rdr 1) busyProf) State.rsps = some [⟨11, 0⟩] := by decide +kernel
/-- V37. -/
theorem test_rdr : view (exec (.rdr 6) treed) State.rsps = some [⟨0, 6⟩] ∧
    view (exec (.rdr 7) treed) State.rsps = some [⟨0, 7⟩] := by decide +kernel
/-- V37. -/
theorem test_rdf : view (exec (.rdf 0x42) counted) State.rsps = some [⟨0, 3⟩] := by decide +kernel
/-- V37. -/
theorem test_rdn : view (exec (.rdn 0 6) treed) State.rsps = some [⟨0, 0x0000000500000001⟩] ∧
    view (exec (.rdn 0 3) treed) State.rsps = some [⟨0, 0x000001FF01FF4400⟩] := by decide +kernel
/-- V37, V35. -/
theorem test_rdn_weight : view (exec (.rdn 1 6) treed) State.rsps = some [⟨0, 10⟩] ∧
    view (exec (.rdn 0 7) treed) State.rsps = some [⟨10, 0⟩] := by decide +kernel
/-- V37. -/
theorem test_rdc : view (exec (.rdc 0 0x44) coded) State.rsps = some [⟨0, 3⟩] ∧
    view (exec (.rdc 1 0x44) coded) State.rsps = some [⟨0, 0xC000000000000000⟩] := by decide +kernel
/-- V25: the last bit of a code of 255 ones is in word 3. -/
theorem test_rdc_word3 : view (exec (.rdc 4 0xFF) { State.reset with
      code := setEntry State.reset.code 0xFF (Code.ofPath (List.replicate 255 true)) }) State.rsps
    = some [⟨0, 0xFFFFFFFFFFFFFFFE⟩] := by decide +kernel

/-! ### Witnesses: each theorem gives states and operands that meet all the hypotheses of the statement it names -/

theorem witness_DecodeOfEncodeIsTheCommand : (Instr.rdc 4 0xFFFF).wf = true := by decide

theorem witness_EncodeOfDecodeIsTheWord : decode 0x11000041 4 = .ok (.ldf 0x41 4) := by decide

theorem witness_OpcodeRowsAreDisjoint : ∃ (cw : Word) (r r' : Row),
    r ∈ opcodeMap ∧ r' ∈ opcodeMap ∧ r.selects cw = true ∧ r'.selects cw = true :=
  ⟨0x63040041, ⟨.rdc, 0x63000000, 0xFFF80000⟩, ⟨.rdc, 0x63000000, 0xFFF80000⟩, by decide⟩

theorem witness_StepRunsTheDecodedCommand : (∃ (s : State) (rest : List Move),
    s.moves = .issue 0x10000000 0 :: rest ∧ decode 0x10000000 0 = .ok .prof) ∧
    decodeTableWord 32 0x10000000 = some .prof :=
  ⟨⟨moved (.issue 0x10000000 0) State.reset, [], rfl, by decide⟩, by decide⟩

theorem witness_HostMovesActOnTheStreams : (moved (.push .eos) State.reset).moves = .push .eos :: [] ∧
    (moved .take State.reset).moves = .take :: [] ∧ (moved (.answer .ok) State.reset).moves = .answer .ok :: [] ∧
    (moved .core State.reset).moves = .core :: [] ∧ State.reset.moves = [] := by decide +kernel

theorem witness_IllegalWordsAreRejected : (∃ (s : State) (rest : List Move), s.moves = .issue 0x41000003 0 :: rest) ∧
    ∀ i, decode 0x41000003 0 ≠ .ok i :=
  ⟨⟨moved (.issue 0x41000003 0) busyProf, [], rfl⟩, fun i h => by
    have : decode 0x41000003 0 = .error .tdesShape := by decide
    rw [this] at h; cases h⟩

theorem witness_BusyRejectsAllButFourReads :
    (Instr.rdr 1).wf = true ∧ busyProf.phase ≠ .idle ∧ Instr.rdr 1 ∉ [.rdr 0, .rdr 3, .rdr 4, .rdr 5] := by decide +kernel

/-- V34 and its like: for each of the eight clauses a state that differs from an accepting one in one flag. -/
theorem witness_SequenceTable :
    (let s := pair; s.phase = .idle ∧ ¬(s.err = false ∧ s.fv = false ∧ s.tv = false)) ∧
    (let s := treed; s.phase = .idle ∧ ¬(s.err = false ∧ s.tv = false)) ∧
    (let s := State.reset; s.phase = .idle ∧ ¬(s.err = false ∧ s.fv = true ∧ s.tv = false)) ∧
    (let s := coded; s.phase = .idle ∧ ¬(s.err = false ∧ s.tv = true ∧ s.bv = false)) ∧
    (let s := State.reset; s.phase = .idle ∧ ¬(s.err = false ∧ s.tv = true)) ∧
    (let s := pair; s.phase = .idle ∧ ¬(s.err = false ∧ s.fv = false ∧ s.tv = false) ∧ (2#2 : BitVec 2) ≠ 3) ∧
    (let s := treed; s.phase = .idle ∧ ¬(s.err = false ∧ s.bv = true ∧ s.fin = false)) ∧
    (let s := { treed with fin := true }; s.phase = .idle ∧ ¬(s.err = false ∧ s.tv = true ∧ s.fin = false)) := by
  decide +kernel

theorem witness_ErrorStateRejects : ∃ (s : State) (i : Instr), i.wf = true ∧ s.phase = .idle ∧ s.err = true ∧
    i ≠ .clr ∧ (∀ r, i ≠ .rdr r) ∧ (∀ b, i ≠ .rdf b) ∧ (∀ f n, i ≠ .rdn f n) ∧ (∀ f b, i ≠ .rdc f b) :=
  ⟨failed, .ldf 256 0, rfl, rfl, rfl, by simp, by simp, by simp, by simp, by simp⟩

theorem witness_ClrStartsANewOperation : failed.phase = .idle := by decide +kernel

theorem witness_HardwareResetAbandonsTheCommand : ∃ rest, (moved .reset busyProf).moves = .reset :: rest := ⟨[], rfl⟩

/-- The last register while idle, the first number that is none, and the edges of the four that may be read while a command
runs. -/
theorem witness_RdrReturnsTheRegister : treed.phase = .idle ∧
    ((8#16 : Idx).toNat, BitVec.ofNat 64 treed.nsym.toNat) = (8, 4#64) ∧ 8 < (9#16 : Idx).toNat ∧
    busyProf.phase ≠ .idle ∧ (0#16 : Idx).toNat ∈ [0, 3, 4, 5] ∧ (5#16 : Idx).toNat ∈ [0, 3, 4, 5] ∧
    (1#16 : Idx).toNat ∉ [0, 3, 4, 5] ∧ (6#16 : Idx).toNat ∉ [0, 3, 4, 5] := by decide +kernel

theorem witness_RdfReturnsTheCount : counted.phase = .idle ∧ 255 < (256#16 : Idx).toNat ∧ busyProf.phase ≠ .idle := by
  decide +kernel

/-- A Leaf, an Internal node at the last index, the first index that is none. -/
theorem witness_RdnReturnsTheNode : treed.phase = .idle ∧ treed.nodes[(0#16 : Idx).toNat]? = some (.leaf 0x41 4) ∧
    treed.nodes[(6#16 : Idx).toNat]? = some (.internal 10 0 5) ∧ treed.nodes.length ≤ (7#16 : Idx).toNat ∧
    (1#8 : Byte).toNat < 2 ∧ busyProf.phase ≠ .idle := by decide +kernel

theorem witness_RdcReturnsTheCode : coded.phase = .idle ∧ 3 < 4 ∧ 63 < 64 ∧ (4#8 : Byte).toNat < 5 ∧
    255 < (256#16 : Idx).toNat ∧ busyProf.phase ≠ .idle := by decide +kernel

theorem witness_ProfCountsTheSource : ∃ (s : State) (src : List Byte) (rest : List Item),
    s.phase = .idle ∧ s.err = false ∧ s.fv = false ∧ s.tv = false ∧ s.inq = src.map .byte ++ .eos :: rest ∧
    s.total.toNat + src.length < 2 ^ 64 ∧ src.length + 1 ≤ s.pace :=
  ⟨fed scenario [.eos, .byte 0x41] State.reset, scenario, [.byte 0x41], by decide +kernel⟩

theorem witness_ProfIgnoresTheOrder : ∃ (s : State) (src src' : List Byte), s.phase = .idle ∧ s.err = false ∧
    s.fv = false ∧ s.tv = false ∧ src.Perm src' ∧ s.total.toNat + src.length < 2 ^ 64 ∧ src.length + 1 ≤ s.pace :=
  ⟨State.reset, [0x41, 0x42], [0x42, 0x41], by decide +kernel⟩

theorem witness_ProfWithoutEosStaysBusy : ∃ (s : State) (src : List Byte), s.phase = .idle ∧ s.err = false ∧
    s.fv = false ∧ s.tv = false ∧ s.inq = src.map .byte ∧ s.total.toNat + src.length < 2 ^ 64 ∧ src.length ≤ s.pace :=
  ⟨fed scenario [] State.reset, scenario, by decide +kernel⟩

theorem witness_ProfKeepsCountsOfAFailedSource : ∃ (s : State) (src : List Byte) (rest : List Item),
    s.phase = .idle ∧ s.err = false ∧ s.fv = false ∧ s.tv = false ∧ s.inq = src.map .byte ++ .fail :: rest ∧
    s.total.toNat + src.length < 2 ^ 64 ∧ src.length + 1 ≤ s.pace :=
  ⟨fed scenario [.fail, .eos] State.reset, scenario, [.eos], by decide +kernel⟩

theorem witness_ProfStopsBeforeTotalOverflows : ∃ (s : State) (src : List Byte) (b : Byte) (rest : List Item),
    s.phase = .idle ∧ s.err = false ∧ s.fv = false ∧ s.tv = false ∧ s.inq = src.map .byte ++ .byte b :: rest ∧
    s.total.toNat + src.length + 1 = 2 ^ 64 ∧ src.length + 1 ≤ s.pace :=
  ⟨fed [0x41, 0x42] [] { State.reset with total := BitVec.ofNat 64 (2 ^ 64 - 2) }, [0x41], 0x42, [], by decide +kernel⟩

/-- In place of A's count the largest that still fits, the smallest that does not; the first symbol out of range; ERR, and TV. -/
theorem witness_LdfReplacesOneCount : pair.phase = .idle ∧ pair.err = false ∧ pair.tv = false ∧
    (entry pair.freq 0x41).toNat ≤ pair.total.toNat ∧
    pair.total.toNat - (entry pair.freq 0x41).toNat + (BitVec.ofNat 64 (2 ^ 64 - 2)).toNat = 2 ^ 64 - 1 ∧
    pair.total.toNat - (entry pair.freq 0x41).toNat + (BitVec.ofNat 64 (2 ^ 64 - 1)).toNat = 2 ^ 64 ∧
    255 < (256#16 : Idx).toNat ∧ (failed.phase = .idle ∧ failed.err = true) ∧ (treed.phase = .idle ∧ treed.tv = true) := by
  decide +kernel

theorem witness_BuildOfNoSymbolMakesNoTree : ∃ (s : State), s.phase = .idle ∧ s.err = false ∧ s.fv = true ∧
    s.tv = false ∧ s.freq = Vector.replicate 256 0 :=
  ⟨{ State.reset with fv := true }, rfl, rfl, rfl, rfl, rfl⟩

theorem witness_BuildOfOneSymbolMakesASyntheticRoot : ∃ (s : State) (b : Byte) (w : Data), s.phase = .idle ∧
    s.err = false ∧ s.fv = true ∧ s.tv = false ∧ w ≠ 0 ∧ s.freq = (Vector.replicate 256 0).set b.toNat w b.isLt :=
  ⟨{ State.reset with fv := true, freq := (Vector.replicate 256 0).set 0xFF 5 }, 0xFF, 5, rfl, rfl, rfl, rfl, by decide, rfl⟩

theorem witness_BuildCountsItsNodes : ∃ (s : State), s.phase = .idle ∧ s.err = false ∧ s.fv = true ∧ s.tv = false ∧
    2 ≤ distinct s.freq ∧ distinct s.freq ≤ 2 ∧ 2 < 2 * distinct s.freq - 1 := ⟨pair, by decide +kernel⟩

theorem witness_BuildMakesOneFullTree : ∃ (s t : State), s.fv = true ∧ s.tv = false ∧ 2 ≤ distinct s.freq ∧
    s.total.toNat = freqSum s.freq ∧ exec .build s = .next t ∧ t.tv = true := by
  obtain ⟨t, ht, hv⟩ := exists_of_view (r := exec .build pair) (f := State.tv) (a := true) (by decide +kernel)
  exact ⟨pair, t, rfl, rfl, by decide +kernel, by decide +kernel, ht, hv⟩

/-- Equal weights at the head. -/
theorem witness_InsertGoesBehindEqualWeights : ∃ (nodes : List Node) (pq : List NodeIdx),
    pq.Pairwise (fun y z => weightAt nodes y ≤ weightAt nodes z) ∧ pq.length = 2 :=
  ⟨[.leaf 0x41 1, .leaf 0x42 1, .leaf 0x43 1], [0, 1], by decide⟩

theorem witness_MergeTakesTheTwoLeast : ∃ (f : Forest) (a b : NodeIdx) (rest : List NodeIdx),
    f.pq = a :: b :: rest ∧ f.pq.Pairwise (before f.nodes) ∧ (∀ i ∈ f.pq, i.toNat < f.nodes.length) ∧
      f.nodes.length < Config.nodeCap :=
  ⟨⟨[.leaf 0x41 1, .leaf 0x42 1, .leaf 0x43 2], [0, 1, 2]⟩, 0, 1, [2], rfl, by unfold before; decide, by decide, by decide⟩

theorem witness_GenAssignsThePaths : ∃ (s : State) (h : Shaped), s.phase = .idle ∧ s.err = false ∧ s.tv = true ∧
    s.bv = false ∧ h.heldAt s.nodes s.root = true ∧ h.depth ≤ 255 := ⟨treed, scenarioTree, by decide +kernel⟩

/-- A shape-1 tree, and no tree. -/
theorem witness_GenAssignsThePaths_shapes :
    Shaped.heldAt lone.nodes lone.root (.lone (.leaf 0x41)) = true ∧
    Shaped.heldAt State.reset.nodes State.reset.root .empty = true := by decide +kernel

theorem witness_CodeBookIsPrefixFree : ∃ (s : State), s.phase = .idle ∧ s.err = false ∧ s.fv = true ∧ s.tv = false ∧
    s.bv = false ∧ entry s.freq 0x41 ≠ 0 ∧ entry s.freq 0x42 ≠ 0 ∧ (0x41#8 : Byte) ≠ 0x42 := ⟨counted, by decide +kernel⟩

theorem witness_KraftEquality : ∃ (s : State), s.phase = .idle ∧ s.err = false ∧ s.fv = true ∧ s.tv = false ∧
    s.bv = false := ⟨counted, by decide +kernel⟩

theorem witness_TserWritesTheTree : ∃ (s : State) (h : Shaped), s.phase = .idle ∧ s.err = false ∧ s.tv = true ∧
    h.heldAt s.nodes s.root = true ∧ sinkTakes h.bytes.length s = true ∧ h.bytes.length ≤ s.pace :=
  ⟨treed, scenarioTree, by decide +kernel⟩

theorem witness_TdesReadsTheTree : ∃ (s : State) (h : Shaped) (rest : List Item), s.phase = .idle ∧ s.err = false ∧
    s.fv = false ∧ s.tv = false ∧ h.size ≤ 511 ∧ s.inq = h.bytes.map .byte ++ rest ∧ h.bytes.length ≤ s.pace :=
  ⟨fed scenarioBytes [.byte 0x0A, .eos] State.reset, scenarioTree, [.byte 0x0A, .eos], by decide +kernel⟩

/-- The first tag that is neither 0 nor 1 is 2; the table is full at 511. -/
theorem witness_TdesErrorsInOrder : ∃ (u v w : State) (rest : List Item),
    (u.moves = [] ∧ u.phase = .desTag [] ∧ u.inq = .byte 0x02 :: rest ∧ (0x02 : Byte) ≠ 0x00 ∧ (0x02 : Byte) ≠ 0x01) ∧
    (v.moves = [] ∧ v.phase = .desTag [] ∧ v.inq = .byte 0x00 :: rest ∧ v.nodes.length = 511) ∧
    (w.moves = [] ∧ w.phase = .desRoot ∧ w.inq = .byte 0x00 :: rest ∧ (0x00 : Byte) ≠ 0x01) ∧
    ({ u with inq := .eos :: rest } : State).inq = .eos :: rest :=
  ⟨{ State.reset with phase := .desTag [], inq := [.byte 0x02] },
    { State.reset with phase := .desTag [], inq := [.byte 0x00], nodes := List.replicate 511 (.leaf 0 0) },
    { State.reset with phase := .desRoot, inq := [.byte 0x00] }, [], by decide +kernel⟩

theorem witness_TreeSurvivesSerialization : ∃ (s u : State) (h : Shaped) (rest : List Item) (t : State) (y : List Byte),
    (s.phase = .idle ∧ s.err = false ∧ s.tv = true ∧ s.bv = false ∧ s.shape = h.shape ∧ h.heldAt s.nodes s.root = true ∧
      h.size ≤ 511 ∧ sinkTakes 1022 s = true ∧ 1022 ≤ s.pace) ∧
    (exec .tser s = .next t ∧ t.outq = s.outq ++ y) ∧
    (u.phase = .idle ∧ u.err = false ∧ u.fv = false ∧ u.tv = false ∧ u.bv = false ∧ u.inq = y.map .byte ++ rest ∧
      1022 ≤ u.pace) := by
  obtain ⟨t, ht, hv⟩ := exists_of_view (r := exec .tser treed) (f := State.outq) (a := treed.outq ++ scenarioBytes)
    (by decide +kernel)
  exact ⟨treed, fed scenarioBytes [.eos] State.reset, scenarioTree, [.eos], t, scenarioBytes, by decide +kernel, ⟨ht, hv⟩,
    by decide +kernel⟩

theorem witness_EncPacksTheCodes : ∃ (s : State) (src : List Byte) (rest : List Item), s.phase = .idle ∧ s.err = false ∧
    s.bv = true ∧ s.fin = false ∧ s.inq = src.map .byte ++ .eos :: rest ∧ (∀ b ∈ src, (entry s.code b).len ≠ 0) ∧
    sinkTakes (packed (codeBits s.code src)).length s = true ∧
    src.length + 1 + (packed (codeBits s.code src)).length ≤ s.pace :=
  ⟨fed scenario [.eos] coded, scenario, [], by decide +kernel⟩

theorem witness_EncRefusesAByteWithoutACode : ∃ (s : State) (src : List Byte) (b : Byte) (rest : List Item),
    s.phase = .idle ∧ s.err = false ∧ s.bv = true ∧ s.fin = false ∧ s.inq = src.map .byte ++ .byte b :: rest ∧
    (∀ x ∈ src, (entry s.code x).len ≠ 0) ∧ (entry s.code b).len = 0 ∧
    sinkTakes ((codeBits s.code src).length / 8) s = true ∧ src.length + 1 + (codeBits s.code src).length / 8 ≤ s.pace :=
  ⟨fed [0x44, 0x44, 0x44, 0x45] [.eos] coded, [0x44, 0x44, 0x44], 0x45, [.eos], by decide +kernel⟩

/-- The source's symbols with their codes. -/
def scenarioSyms : List (Byte × List Bool) :=
  (List.replicate 4 (0x41, [false])) ++ List.replicate 3 (0x42, [true, false]) ++ List.replicate 2 (0x43, [true, true, true])
    ++ [(0x44, [true, true, false])]

theorem witness_DecWalksTheTree : ∃ (s : State) (h : Shaped) (syms : List (Byte × List Bool)) (payload : List Byte)
    (rest : List Item), s.phase = .idle ∧ s.err = false ∧ s.tv = true ∧ s.fin = false ∧ h.heldAt s.nodes s.root = true ∧
    (∀ x ∈ syms, x ∈ h.codes) ∧ syms.length < 2 ^ 64 ∧
    (payloadBits payload).take (syms.flatMap (·.2)).length = syms.flatMap (·.2) ∧
    payload.length = ((syms.flatMap (·.2)).length + 7) / 8 ∧ s.inq = payload.map .byte ++ rest ∧
    sinkTakes syms.length s = true ∧ syms.length + payload.length ≤ s.pace :=
  ⟨fed [0x0A, 0xBF, 0xC0] [.eos] treed, scenarioTree, scenarioSyms, [0x0A, 0xBF, 0xC0], [.eos], by decide +kernel⟩

theorem witness_DecOfNothingCompletes : treed.phase = .idle ∧ treed.err = false ∧ treed.tv = true ∧ treed.fin = false := by
  decide +kernel

theorem witness_DecWithoutATreeIsCorrupt : ∃ (s : State) (n : Data), s.phase = .idle ∧ s.err = false ∧ s.tv = true ∧
    s.fin = false ∧ s.root = 511 ∧ n ≠ 0 := ⟨{ State.reset with tv := true }, 1, by decide +kernel⟩

/-- V16 (four symbols, then the 1) and, with no symbol before the 1 and a root that is a Leaf, V23's tree. -/
theorem witness_DecOfAMissingChildIsCorrupt : ∀ x ∈ [(fed [0x08] [.eos] lone, Shaped.lone (.leaf 0x41), 4, (0x08 : Byte)),
    (fed [0x80] [.eos] { lone with shape := 2, nodes := [.leaf 0x41 0] }, .full (.leaf 0x41), 0, 0x80)],
    let s := x.1
    let syms : List (Byte × List Bool) := List.replicate x.2.2.1 (0x41, [false])
    s.phase = .idle ∧ s.err = false ∧ s.tv = true ∧ s.fin = false ∧ x.2.1.heldAt s.nodes s.root = true ∧
    s.root ≠ 511 ∧ noChild s.nodes s.root true = true ∧ (∀ x' ∈ syms, x' ∈ x.2.1.codes) ∧ syms.length < (5 : Data).toNat ∧
    (payloadBits [x.2.2.2]).take ((syms.flatMap (·.2)).length + 1) = syms.flatMap (·.2) ++ [true] ∧
    1 = ((syms.flatMap (·.2)).length + 8) / 8 ∧ s.inq = [x.2.2.2].map .byte ++ [.eos] ∧
    sinkTakes syms.length s = true ∧ syms.length + 1 ≤ s.pace := by decide +kernel

/-- The two micro-steps: the first bit of a byte, and the last bit left in DBYTE with the last symbol still expected. -/
theorem witness_DecOfAMissingChildIsCorrupt_steps : ∃ (u v : State) (b sym : Byte) (rest : List Item),
    (u.moves = [] ∧ u.phase = .decPop ∧ u.inq = .byte b :: rest ∧ noChild u.nodes u.cur (b.getLsbD 7) = true) ∧
    (v.moves = [] ∧ v.phase = .decPush sym ∧ sinkTakes 1 v = true ∧ v.decoded + 1 < v.expected ∧ v.root ≠ 511 ∧
      v.dbits = 1 ∧ noChild v.nodes v.root (v.dbyte.getLsbD 7) = true) :=
  ⟨{ fed [0x80] [.eos] lone with phase := .decPop, cur := 0 },
    { lone with phase := .decPush 0x41, expected := 2, dbyte := 0x80, dbits := 1 }, 0x80, 0x41, [.eos], by decide +kernel⟩

theorem witness_DecOfAnExhaustedPayloadIsCorrupt : ∃ (s : State) (rest : List Item), s.moves = [] ∧ s.phase = .decPop ∧
    s.inq = .eos :: rest := ⟨{ fed [] [.eos] treed with phase := .decPop, cur := 4 }, [], by decide +kernel⟩

theorem witness_DecOfATruncatedPayloadIsCorrupt : ∃ (s : State) (h : Shaped) (syms : List (Byte × List Bool))
    (rest : List Item), s.phase = .idle ∧ s.err = false ∧ s.tv = true ∧ s.fin = false ∧
    h.heldAt s.nodes s.root = true ∧ (∀ x ∈ syms, x ∈ h.codes) ∧ syms ≠ [] ∧ syms.length < 2 ^ 64 ∧
    s.inq = (packed (syms.flatMap (·.2))).dropLast.map .byte ++ .eos :: rest ∧
    sinkTakes syms.length s = true ∧ syms.length + (packed (syms.flatMap (·.2))).length ≤ s.pace :=
  ⟨fed [0x0A, 0xBF] [.eos] treed, scenarioTree, scenarioSyms, [], by decide +kernel⟩

theorem witness_DecodeOfEncodeIsTheSource : ∃ (s : State) (src : List Byte), s.phase = .idle ∧ s.inq = [] ∧
    s.outq = [] ∧ s.sinkAnswers = [] ∧ s.sinkThen = some .ok ∧ src.length < 2 ^ 64 ∧ 64 * src.length + 2048 ≤ s.pace :=
  ⟨coded, scenario, by decide +kernel⟩

/-- Each command that pops, in each of its two places for TDES's Des(). -/
theorem witness_SourceFailureRaisesIo1 :
    ∀ p ∈ [Phase.profPop, .desRoot, .encPop, .decPop, .desTag [.left 0], .desSym []],
      let s := { State.reset with phase := p, inq := [.fail] }
      s.moves = [] ∧ s.inq = .fail :: [] ∧
        (s.phase ∈ [.profPop, .desRoot, .encPop, .decPop] ∨ s.phase = .desTag [.left 0] ∨ s.phase = .desSym []) := by
  decide +kernel

/-- A fail answer at hand, and a sink that fails from now on. -/
theorem witness_SinkFailureRaisesIo2 : ∃ (u v : State), u.moves = [] ∧ u.sinkAnswers = [.fail] ∧
    u.phase = .serPush [.node 6] ∧ nodeAt u.nodes 6 = some (.internal 10 0 5) ∧ v.moves = [] ∧ v.sinkAnswers = [] ∧
    v.sinkThen = some .fail ∧ v.phase = .encFlush :=
  ⟨{ treed with sinkAnswers := [.fail], phase := .serPush [.node 6] },
    { coded with sinkThen := some .fail, phase := .encFlush }, by decide +kernel⟩

/-- A core that waits in InPop, and one that waits in OutPush. -/
theorem witness_WaitingChangesNothing : ∃ (u v : State), u.moves = [] ∧ u.inq = [] ∧ u.phase = .profPop ∧
    v.moves = [] ∧ v.sinkAnswers = [] ∧ v.sinkThen = none ∧ v.phase = .decPush 0x41 :=
  ⟨busyProf, { treed with sinkThen := none, phase := .decPush 0x41 }, by decide +kernel⟩

theorem witness_ErrorEntryIsPrecise : ∃ (s t : State), step s = .next t ∧ s.err = false ∧ t.err = true ∧
    s.phase ≠ .idle := by
  obtain ⟨t, ht, hv⟩ := exists_of_view (r := step (fed [] [.fail] busyProf)) (f := State.err) (a := true) (by decide +kernel)
  exact ⟨_, t, ht, rfl, hv, by decide +kernel⟩

theorem witness_ErrorStaysLatched : ∃ (s t : State), step s = .next t ∧ s.phase = .idle ∧ s.err = true ∧
    startsOperation s = false := by
  obtain ⟨t, ht, -⟩ := exists_of_view (r := step (moved (.issue 0x10000000 0) failed)) (f := fun _ => ()) (a := ())
    (by decide +kernel)
  exact ⟨_, t, ht, rfl, rfl, by decide +kernel⟩

theorem witness_ValidityFlagsOnlyRise : ∃ (s t : State), step s = .next t ∧ startsOperation s = false ∧ s.tv = true ∧
    s.bv = true := by
  obtain ⟨t, ht, -⟩ := exists_of_view (r := step (moved (.issue 0x40000000 0) coded)) (f := fun _ => ()) (a := ())
    (by decide +kernel)
  exact ⟨_, t, ht, by decide +kernel, rfl, rfl⟩

/-- CODE entries of reset are tidy. -/
theorem reset_codesTidy : codesTidy State.reset.code := by
  intro b k _ _
  have : entry State.reset.code b = ⟨0, 0⟩ := by simp [entry, State.reset]
  rw [this]
  simp [BitVec.getMsbD]

/-- The invariant holds of a state with a tree, a running TSER among them. -/
theorem treed_inv : Inv treed ∧ Inv { treed with phase := .serPush [.node 6], curop := 0x40 } :=
  ⟨⟨by decide +kernel, by decide +kernel, by decide +kernel, reset_codesTidy, rfl, by decide, by decide⟩,
    ⟨by decide +kernel, by decide +kernel, by decide +kernel, reset_codesTidy, rfl, by decide, by decide⟩⟩

theorem witness_TablesAreFrozenOnceUsed : ∃ (s t : State), Inv s ∧ step s = .next t ∧ startsOperation s = false ∧
    s.tv = true := by
  obtain ⟨t, ht, -⟩ := exists_of_view (r := step { treed with phase := .serPush [.node 6], curop := 0x40 })
    (f := fun _ => ()) (a := ()) (by decide +kernel)
  exact ⟨_, t, treed_inv.2, ht, by decide +kernel, rfl⟩

theorem witness_StreamsKeepTheirOrder : ∃ (s t : State), step s = .next t ∧ (∀ it rest, s.moves ≠ .push it :: rest) ∧
    (∀ rest, s.moves ≠ .take :: rest) := by
  obtain ⟨t, ht, -⟩ := exists_of_view (r := step (fed [0x41] [] busyProf)) (f := fun _ => ()) (a := ()) (by decide +kernel)
  exact ⟨_, t, ht, (by intro _ _ h; cases h), (by intro _ h; cases h)⟩

/-- A step that gives no response, and one that gives a rejection. -/
theorem witness_ResponsesAreTheListedOnes : ∃ (s t u v : State), step s = .next t ∧ t.rsps = s.rsps ∧ step u = .next v ∧
    v.rsps = u.rsps ++ [⟨8, 0⟩] := by
  obtain ⟨t, ht, hv⟩ := exists_of_view (r := step busyProf) (f := State.rsps) (a := []) (by decide +kernel)
  obtain ⟨v, hu, hw⟩ := exists_of_view (r := step (moved (.issue 0 0) State.reset)) (f := State.rsps) (a := [⟨8, 0⟩])
    (by decide +kernel)
  exact ⟨_, t, _, v, ht, hv, hu, hw⟩

theorem witness_PaceOnlySplitsTheRun : ∃ (s t : State) (i : Instr) (a b : Nat), s.phase = .idle ∧
    exec i { s with pace := a } = .next t ∧ b ≠ 0 := by
  obtain ⟨t, ht, -⟩ := exists_of_view (r := exec .prof { fed scenario [.eos] State.reset with pace := 3 })
    (f := fun _ => ()) (a := ()) (by decide +kernel)
  exact ⟨_, t, .prof, 3, 8, rfl, ht, by decide⟩

theorem witness_EveryStepKeepsTheInvariant : ∃ s t : State, Inv s ∧ step s = .next t ∧ t.phase = .idle := by
  obtain ⟨t, ht, hv⟩ := exists_of_view (r := step treed) (f := State.phase) (a := .idle) (by decide +kernel)
  exact ⟨treed, t, treed_inv.1, ht, hv⟩

/-- A run on which a tree exists: TDES 0 after reset. -/
theorem witness_NoRunLosesTheTree : ∃ s : State, Reachable s ∧ s.tv = true := by
  obtain ⟨t, ht, hv⟩ := exists_of_view (r := step (moved (.issue 0x41000000 0) State.reset)) (f := State.tv) (a := true)
    (by decide +kernel)
  exact ⟨t, .step _ t (.host _ [] [] _ [] (some .ok) 1048576 .reset) ht, hv⟩

end Sys2Proof.Tests
end

/-! SUPPORT. The step by the head of the host's script (00_scope.md R10), and the statements about it. -/

namespace Sys2Proof.Machine

variable {s : State}

theorem step_of_no_move (h : s.moves = []) : step s = micro s := by simp [step, nextMove, h]

theorem step_of_move {m : Move} {rest : List Move} (h : s.moves = m :: rest) :
    step s = takeMove m { s with moves := rest } := by simp [step, nextMove, h]

theorem issueWord_of_decode {cw : Word} {wdata : Data} {i : Instr} (h : decode cw wdata = .ok i) (s : State) :
    issueWord cw wdata s = exec i s := by simp [issueWord, h]

theorem step_issue {cw : Word} {wdata : Data} {rest : List Move} {i : Instr} (hm : s.moves = .issue cw wdata :: rest)
    (hd : decode cw wdata = .ok i) : step s = exec i { s with moves := rest } :=
  (step_of_move hm).trans (issueWord_of_decode hd _)

end Sys2Proof.Machine

namespace Sys2Proof

theorem decodeTableWord_eq_some {nbits w : Nat} {i : Instr} :
    decodeTableWord nbits w = some i ↔
      decode (commandOf nbits w).1 (commandOf nbits w).2 = .ok i := by
  unfold decodeTableWord
  split <;> simp [*]

end Sys2Proof

namespace Sys2Proof.Machine

/-- Settles O6: the issue move goes through the decoder; `withFetchWord` puts one such move first, and taking it gives back the
state it was put in. -/
theorem stepRunsTheDecodedCommand : Obligations.StepRunsTheDecodedCommand := by
  refine ⟨fun s cw wdata rest i hm hd => step_issue hm hd, fun s nbits w i h => ?_⟩
  exact step_issue (s := s.withFetchWord nbits w) rfl (decodeTableWord_eq_some.1 h)

/-- Settles O7: each clause is the step by the head of the script, and `takeMove` of that move. -/
theorem hostMovesActOnTheStreams : Obligations.HostMovesActOnTheStreams :=
  fun _ _ => ⟨fun _ h => step_of_move h, step_of_move, fun _ h => step_of_move h, step_of_move, step_of_no_move⟩

end Sys2Proof.Machine

/-! SUPPORT. `goOn` alone reads the pace: every other operation of the core commutes with a change of it, and so the pace only
splits a command's run (00_scope.md R10). -/

namespace Sys2Proof.Machine

/-- The state with leave for `p` micro-steps in the accepting move. -/
def State.withPace (s : State) (p : Nat) : State := { s with pace := p }

/-- The answer with the pace of its next state, if it has one, replaced. -/
def withPaceNext (p : Nat) (r : Result) : Result := andThen r fun s => .next (s.withPace p)

/-- The operation neither reads the pace nor sets it. -/
def PaceBlind (f : State → Result) : Prop := ∀ (p : Nat) (s : State), f (s.withPace p) = withPaceNext p (f s)

@[simp] theorem State.withPace_phase (s : State) (p : Nat) : (s.withPace p).phase = s.phase := rfl
@[simp] theorem State.withPace_nodes (s : State) (p : Nat) : (s.withPace p).nodes = s.nodes := rfl
@[simp] theorem State.withPace_cur (s : State) (p : Nat) : (s.withPace p).cur = s.cur := rfl
@[simp] theorem State.withPace_root (s : State) (p : Nat) : (s.withPace p).root = s.root := rfl
@[simp] theorem State.withPace_freq (s : State) (p : Nat) : (s.withPace p).freq = s.freq := rfl
@[simp] theorem State.withPace_nacc (s : State) (p : Nat) : (s.withPace p).nacc = s.nacc := rfl

theorem withPaceNext_eq_next {p : Nat} {r : Result} {t : State} :
    withPaceNext p r = .next t ↔ ∃ u, r = .next u ∧ u.withPace p = t := by
  simp [withPaceNext, andThen_eq_next]

/-! ### The shapes operations are built from -/

section Shapes
variable {k : State → Result}

theorem paceBlind_next {f : State → State} (h : ∀ p s, f (s.withPace p) = (f s).withPace p) :
    PaceBlind fun s => .next (f s) :=
  fun p s => congrArg Host.Outcome.next (h p s)

theorem paceBlind_ite {c : State → Prop} [DecidablePred c] {f g : State → Result}
    (hc : ∀ p s, c (s.withPace p) = c s) (hf : PaceBlind f) (hg : PaceBlind g) :
    PaceBlind fun s => if c s then f s else g s := by
  intro p s
  simp only [hc]
  split
  · exact hf p s
  · exact hg p s

theorem paceBlind_andThen {f : State → Result} (hf : PaceBlind f) (hk : PaceBlind k) :
    PaceBlind fun s => andThen (f s) k := by
  intro p s
  simp only [hf p s]
  cases f s with
  | next t => exact hk p t
  | fault _ => rfl
  | refused _ => rfl

/-- InPop reads INQ only (R67). -/
theorem paceBlind_inPop {k : Option Byte → State → Result} (hk : ∀ item, PaceBlind (k item)) :
    PaceBlind (inPop · k) := by
  intro p s
  show inPop (s.withPace p) k = withPaceNext p (inPop s k)
  rcases inPop_cases s k with ⟨h, e⟩ | ⟨b, rest, h, e⟩ | ⟨rest, h, e⟩ | ⟨rest, h, e⟩ <;> rw [e]
  · exact inPop_nil h
  · exact (inPop_byte (s := s.withPace p) h).trans (hk (some b) p (s.popped (.byte b) rest))
  · exact (inPop_eos (s := s.withPace p) h).trans (hk none p (s.popped .eos rest))
  · exact inPop_fail h

/-- OutPush reads the sink's answers only (R68). -/
theorem paceBlind_outPush {b : State → Byte} (hb : ∀ p s, b (s.withPace p) = b s) (hk : PaceBlind k) :
    PaceBlind fun s => outPush (b s) s k := by
  intro p s
  simp only [hb p s]
  rcases outPush_cases (b s) s k with ⟨h, e⟩ | ⟨h, e⟩ | ⟨h, e⟩ <;> rw [e]
  · exact outPush_waits h
  · exact (outPush_ok (s := s.withPace p) h).trans (hk p (s.pushed (b s)))
  · exact outPush_fail h

end Shapes

/-! ### The micro-steps -/

theorem paceBlind_profMicro : PaceBlind profMicro := paceBlind_inPop fun item => by
  cases item with
  | none => exact paceBlind_next fun _ _ => rfl
  | some b => exact paceBlind_ite (fun _ _ => rfl) (paceBlind_next fun _ _ => rfl) (paceBlind_next fun _ _ => rfl)

theorem serGoOn_withPace (todo : List SerWork) (p : Nat) (s : State) :
    serGoOn todo (s.withPace p) = (serGoOn todo s).withPace p := by
  cases todo <;> rfl

theorem paceBlind_serMicro (todo : List SerWork) : PaceBlind (serMicro todo) := by
  have push (b : Byte) (todo : List SerWork) : PaceBlind (outPush b · fun s => .next (serGoOn todo s)) :=
    paceBlind_outPush (fun _ _ => rfl) (paceBlind_next (serGoOn_withPace todo))
  intro p s
  match todo with
  | [] => rfl
  | .sym b :: rest => exact push b rest p s
  | .node i :: rest =>
    simp only [serMicro, State.withPace_nodes]
    rcases nodeAt s.nodes i with _ | (_ | _)
    · rfl
    · exact push _ _ p s
    · exact push _ _ p s

theorem paceBlind_getByte {k : Byte → State → Result} (hk : ∀ b, PaceBlind (k b)) : PaceBlind (getByte · k) :=
  paceBlind_inPop fun item => by
    cases item with
    | none => exact paceBlind_next fun _ _ => rfl
    | some b => exact hk b

theorem paceBlind_desRootMicro : PaceBlind desRootMicro :=
  paceBlind_getByte fun _ =>
    paceBlind_ite (fun _ _ => rfl) (paceBlind_next fun _ _ => rfl) (paceBlind_next fun _ _ => rfl)

theorem paceBlind_desTagMicro (stack : List DesFrame) : PaceBlind (desTagMicro stack) :=
  paceBlind_getByte fun _ =>
    paceBlind_ite (fun _ _ => rfl) (paceBlind_next fun _ _ => rfl) <|
      paceBlind_ite (fun _ _ => rfl) (paceBlind_next fun _ _ => rfl) <|
        paceBlind_ite (fun _ _ => rfl) (paceBlind_next fun _ _ => rfl) (paceBlind_next fun _ _ => rfl)

theorem desReturn_withPace (r : NodeIdx) (stack : List DesFrame) (p : Nat) (s : State) :
    desReturn r stack (s.withPace p) = (desReturn r stack s).withPace p := by
  induction stack generalizing r s with
  | nil => rfl
  | cons f stack ih =>
    cases f with
    | lone => rfl
    | left i => rfl
    | right i => exact ih i (s.modifyNode i (Node.withRight r))

theorem paceBlind_desSymMicro (stack : List DesFrame) : PaceBlind (desSymMicro stack) :=
  paceBlind_getByte fun b => paceBlind_next fun p s =>
    desReturn_withPace _ stack p { s.allocated (.leaf b 0) with nsym := s.nsym + 1 }

theorem putBits_withPace (bits : List Bool) (p : Nat) (s : State) :
    putBits bits (s.withPace p) = (putBits bits s).withPace p := by
  induction bits generalizing s with
  | nil => rfl
  | cons v rest ih =>
    by_cases h : s.nacc = 7
    · simp only [putBits, State.withPace_nacc, h, if_true]; rfl
    · simp only [putBits, State.withPace_nacc, h, if_false]; exact ih (s.putBit v)

theorem paceBlind_encPopMicro : PaceBlind encPopMicro := paceBlind_inPop fun item => by
  cases item with
  | none => exact paceBlind_ite (fun _ _ => rfl) (paceBlind_next fun _ _ => rfl) (paceBlind_next fun _ _ => rfl)
  | some b =>
    exact paceBlind_ite (fun _ _ => rfl) (paceBlind_next fun _ _ => rfl)
      (paceBlind_next fun p s => putBits_withPace _ p s)

theorem paceBlind_encPushMicro (v : Bool) (rest : List Bool) : PaceBlind (encPushMicro v rest) :=
  paceBlind_outPush (fun _ _ => rfl) (paceBlind_next fun p s => putBits_withPace rest p s.emptyAcc)

theorem paceBlind_encFlushMicro : PaceBlind encFlushMicro :=
  paceBlind_outPush (fun _ _ => rfl) (paceBlind_next fun _ _ => rfl)

theorem paceBlind_walkTo (child : NodeIdx) {k : State → Result} (hk : PaceBlind k) : PaceBlind (walkTo child · k) := by
  refine paceBlind_ite (fun _ _ => rfl) (paceBlind_next fun _ _ => rfl) fun p s => ?_
  simp only [State.withPace_nodes]
  rcases nodeAt s.nodes child with _ | (_ | _)
  · rfl
  · rfl
  · exact hk p { s with cur := child }

theorem walkBit_withPace (v : Bool) {k : State → Result} (hk : PaceBlind k) (p : Nat) (s : State) :
    walkBit v (s.withPace p) k = withPaceNext p (walkBit v s k) := by
  simp only [walkBit, State.withPace_nodes, State.withPace_cur]
  rcases nodeAt s.nodes s.cur with _ | (_ | _)
  · rfl
  · cases v <;> rfl
  · exact paceBlind_walkTo _ hk p s

theorem paceBlind_decBits (n : Nat) : PaceBlind (decBits n) := by
  induction n with
  | zero => exact paceBlind_next fun _ _ => rfl
  | succ n ih => exact fun p s => walkBit_withPace _ ih p s.bitTaken

theorem paceBlind_decNext : PaceBlind decNext :=
  paceBlind_ite (fun _ _ => rfl)
    (paceBlind_ite (fun _ _ => rfl) (paceBlind_next fun _ _ => rfl) fun p s =>
      paceBlind_decBits s.dbits.toNat p { s with cur := s.root })
    (paceBlind_next fun _ _ => rfl)

theorem paceBlind_decPopMicro : PaceBlind decPopMicro := paceBlind_inPop fun item => by
  cases item with
  | none => exact paceBlind_next fun _ _ => rfl
  | some b => exact fun p s => paceBlind_decBits 8 p { s with dbyte := b, dbits := 8 }

theorem paceBlind_decPushMicro (sym : Byte) : PaceBlind (decPushMicro sym) :=
  paceBlind_outPush (fun _ _ => rfl) fun p s => paceBlind_decNext p { s with decoded := s.decoded + 1 }

theorem paceBlind_micro : PaceBlind micro := by
  intro p s
  simp only [micro, State.withPace_phase]
  cases s.phase with
  | idle => rfl
  | profPop => exact paceBlind_profMicro p s
  | serPush todo => exact paceBlind_serMicro todo p s
  | desRoot => exact paceBlind_desRootMicro p s
  | desTag stack => exact paceBlind_desTagMicro stack p s
  | desSym stack => exact paceBlind_desSymMicro stack p s
  | encPop => exact paceBlind_encPopMicro p s
  | encPush v rest => exact paceBlind_encPushMicro v rest p s
  | encFlush => exact paceBlind_encFlushMicro p s
  | decPop => exact paceBlind_decPopMicro p s
  | decPush sym => exact paceBlind_decPushMicro sym p s

theorem paceBlind_runMicro (n : Nat) : PaceBlind (runMicro n) := by
  induction n with
  | zero => exact paceBlind_next fun _ _ => rfl
  | succ n ih =>
    exact paceBlind_ite (fun _ _ => rfl) (paceBlind_andThen paceBlind_micro ih) (paceBlind_next fun _ _ => rfl)

/-! ### The commands -/

theorem checks_withPace (i : Instr) (p : Nat) (s : State) : checks i (s.withPace p) = checks i s := by
  cases i <;> rfl

theorem built_withPace (p : Nat) (s : State) : (s.withPace p).built = s.built.withPace p := by
  simp only [State.built, State.withPace_freq]
  split <;> rfl

theorem desStart_withPace (shape : BitVec 2) (p : Nat) (s : State) :
    (s.withPace p).desStart shape = (s.desStart shape).withPace p := by
  unfold State.desStart
  split
  · rfl
  · split <;> rfl

/-- The pace splits what `f` does: with leave for a + b micro-steps it does what it does with leave for a, then up to b more. -/
def PaceSplits (f : State → Result) : Prop :=
  ∀ (s t : State) (a b : Nat), s.phase = .idle → f (s.withPace a) = .next t →
    f (s.withPace (a + b)) = runMicro b (t.withPace (a + b))

/-- The rule of a streaming command: up to its first stream access, then as many micro-steps as it has leave for. -/
theorem paceSplits_andThen_goOn {start : State → Result} (hs : PaceBlind start) :
    PaceSplits fun s => andThen (start s) goOn := by
  intro s t a b _ h
  simp only [hs _ s] at h ⊢
  obtain ⟨_, hu', hrun⟩ := andThen_eq_next.1 h
  obtain ⟨u, hu, rfl⟩ := withPaceNext_eq_next.1 hu'
  obtain ⟨v, hv, rfl⟩ := withPaceNext_eq_next.1 ((paceBlind_runMicro a a u).symm.trans hrun)
  calc andThen (withPaceNext (a + b) (start s)) goOn
      = runMicro (a + b) (u.withPace (a + b)) := by rw [hu]; rfl
    _ = andThen (withPaceNext (a + b) (runMicro a u)) (runMicro b) := by rw [runMicro_add, paceBlind_runMicro]
    _ = runMicro b (v.withPace (a + b)) := by rw [hv]; rfl

theorem paceSplits_goOn {f : State → State} (hf : ∀ p s, f (s.withPace p) = (f s).withPace p) :
    PaceSplits fun s => goOn (f s) :=
  paceSplits_andThen_goOn (paceBlind_next hf)

/-- An operation that starts and ends idle leaves no micro-step to take. -/
theorem paceSplits_of_keeps_idle {f : State → Result} (hf : PaceBlind f)
    (idle : ∀ s t, s.phase = .idle → f s = .next t → t.phase = .idle) : PaceSplits f := by
  intro s t a b hs h
  rw [hf] at h ⊢
  obtain ⟨u, hu, rfl⟩ := withPaceNext_eq_next.1 h
  rw [hu]
  exact (runMicro_idle (s := u.withPace (a + b)) (idle s u hs hu) b).symm

theorem paceSplits_issued (i : Instr) {rule : State → Result} (hr : PaceSplits rule) : PaceSplits (issued i · rule) := by
  intro s t a b hs h
  simp only at h ⊢
  rcases hc : checks i s with _ | r
  · have pass (p : Nat) : checks i (s.withPace p) = none := (checks_withPace i p s).trans hc
    rw [issued_of_pass (pass _)] at h ⊢
    exact hr (s.accept i) t a b hs h
  · have fail (p : Nat) : checks i (s.withPace p) = some r := (checks_withPace i p s).trans hc
    rw [issued_of_fail (fail _)] at h ⊢
    cases h
    exact (runMicro_idle (s := (s.withPace (a + b)).respond r 0) hs b).symm

/-- The rule of a command that runs as one atomic move. -/
theorem paceSplits_complete {v : State → Data} {f : State → State} (hv : ∀ p s, v (s.withPace p) = v s)
    (hf : ∀ p s, f (s.withPace p) = (f s).withPace p) (idle : ∀ s, s.phase = .idle → (f s).phase = .idle) :
    PaceSplits fun s => complete (v s) (f s) := by
  refine paceSplits_of_keeps_idle (paceBlind_next fun p s => ?_) fun s t hs h => ?_
  · rw [hv, hf]; rfl
  · cases h; exact idle s hs

/-- The rule of a read of a fixed part of the state. -/
theorem paceSplits_read {v : State → Data} (hv : ∀ p s, v (s.withPace p) = v s) :
    PaceSplits fun s => complete (v s) s :=
  paceSplits_complete hv (fun _ _ => rfl) fun _ h => h

theorem built_phase (s : State) : s.built.phase = s.phase := by
  simp only [State.built]
  split <;> rfl

theorem paceSplits_execGen : PaceSplits execGen := by
  refine paceSplits_issued _ (paceSplits_of_keeps_idle ?_ ?_)
  · refine paceBlind_ite (fun _ _ => rfl) (paceBlind_next fun _ _ => rfl) fun p s => ?_
    simp only [State.withPace_nodes, State.withPace_root]
    cases walk s.nodes (Config.maxDepth + 1) s.root [] emptyCode <;> rfl
  · intro s t hs h
    split at h
    · cases h; exact hs
    · split at h
      · cases h; exact hs
      · cases h

theorem paceSplits_execRdn (sel : Byte) (idx : Idx) : PaceSplits (execRdn sel idx) := by
  refine paceSplits_issued _ (paceSplits_of_keeps_idle (fun p s => ?_) fun s t hs h => ?_)
  · simp only [State.withPace_nodes]
    cases s.nodes[idx.toNat]? <;> rfl
  · split at h <;> cases h <;> exact hs

theorem paceSplits_exec (i : Instr) : PaceSplits (exec i) := by
  cases i with
  | clr => exact show PaceSplits execClr from
      paceSplits_issued _ (paceSplits_complete (fun _ _ => rfl) (fun _ _ => rfl) fun _ _ => rfl)
  | prof => exact show PaceSplits execProf from paceSplits_issued _ (paceSplits_goOn fun _ _ => rfl)
  | ldf sym count => exact show PaceSplits (execLdf sym count) from
      paceSplits_issued _ (paceSplits_complete (fun _ _ => rfl) (fun _ _ => rfl) fun _ h => h)
  | build => exact show PaceSplits execBuild from
      paceSplits_issued _ (paceSplits_complete (fun _ _ => rfl) built_withPace fun s h => (built_phase s).trans h)
  | gen => exact paceSplits_execGen
  | tser => exact show PaceSplits execTser from
      paceSplits_issued _ (paceSplits_goOn fun p s => serGoOn_withPace (serChild s.root) p s)
  | tdes shape => exact show PaceSplits (execTdes shape) from
      paceSplits_issued _ (paceSplits_goOn (desStart_withPace shape))
  | enc => exact show PaceSplits execEnc from paceSplits_issued _ (paceSplits_goOn fun _ _ => rfl)
  | dec expected => exact show PaceSplits (execDec expected) from
      paceSplits_issued _ (paceSplits_andThen_goOn fun p s =>
        paceBlind_decNext p { s with expected := expected, decoded := 0, dbyte := 0, dbits := 0, cur := Config.nil })
  | rdr reg => exact show PaceSplits (execRdr reg) from paceSplits_issued _ (paceSplits_read fun _ _ => rfl)
  | rdf sym => exact show PaceSplits (execRdf sym) from paceSplits_issued _ (paceSplits_read fun _ _ => rfl)
  | rdn sel idx => exact paceSplits_execRdn sel idx
  | rdc sel sym => exact show PaceSplits (execRdc sel sym) from paceSplits_issued _ (paceSplits_read fun _ _ => rfl)

/-- Settles O57: an atomic command ignores the pace and leaves nothing to run; a streaming one runs `pace` micro-steps, none of
which reads it, and a run of a + b micro-steps is a run of a, then of b. -/
theorem paceOnlySplitsTheRun : Obligations.PaceOnlySplitsTheRun :=
  fun s t i a b hs h => paceSplits_exec i s t a b hs h

end Sys2Proof.Machine

/-! SUPPORT. What an answer holds, as one rule per shared operation: every invariant of the step is proved with these. -/

namespace Sys2Proof.Machine

/-- The next state, if there is one, meets `P`; a stop is admitted where `stops` holds. -/
def Sat (stops : Prop) (P : State → Prop) : Result → Prop
  | .next t => P t
  | .fault _ => stops
  | .refused _ => stops

section Sat
variable {stops : Prop} {P Q : State → Prop} {s t : State} {r : Result}

theorem Sat.of_eq_next (h : Sat stops P r) (e : r = .next t) : P t := by subst e; exact h

/-- With no stop admitted there is a next state. -/
theorem Sat.exists_next (h : Sat False P r) : ∃ t, r = .next t ∧ P t := by
  cases r with
  | next t => exact ⟨t, rfl, h⟩
  | fault _ => exact h.elim
  | refused _ => exact h.elim

theorem sat_of_forall (h : ∀ t, r = .next t → P t) : Sat True P r := by
  cases r with
  | next t => exact h t rfl
  | fault _ => trivial
  | refused _ => trivial

theorem sat_andThen {k : State → Result} (h : Sat stops Q r) (hk : ∀ t, Q t → Sat stops P (k t)) :
    Sat stops P (andThen r k) := by
  cases r with
  | next t => exact hk t h
  | fault _ => exact h
  | refused _ => exact h

/-- InPop: the core waits, the command goes on with a byte or with EOS, or Err(IO, 1) is raised (R67). -/
theorem sat_inPop {k : Option Byte → State → Result} (waits : P s)
    (byte : ∀ b rest, Sat stops P (k (some b) (s.popped (.byte b) rest)))
    (eos : ∀ rest, Sat stops P (k none (s.popped .eos rest)))
    (fail : ∀ rest, P ((s.popped .fail rest).raise .ioSource)) : Sat stops P (inPop s k) := by
  rcases inPop_cases s k with ⟨_, e⟩ | ⟨b, rest, _, e⟩ | ⟨rest, _, e⟩ | ⟨rest, _, e⟩ <;> rw [e]
  · exact waits
  · exact byte b rest
  · exact eos rest
  · exact fail rest

/-- OutPush: the core waits, the command goes on, or Err(IO, 2) is raised (R68). -/
theorem sat_outPush {k : State → Result} {b : Byte} (waits : P s) (ok : Sat stops P (k (s.pushed b)))
    (fail : P (s.answered.raise .ioSink)) : Sat stops P (outPush b s k) := by
  rcases outPush_cases b s k with ⟨_, e⟩ | ⟨_, e⟩ | ⟨_, e⟩ <;> rw [e]
  · exact waits
  · exact ok
  · exact fail

/-- Issuing a command: a rejection, or the accept and the command's rule (R96). -/
theorem sat_issued {i : Instr} {rule : State → Result} (rejected : ∀ resp, P (s.respond resp 0))
    (accepted : checks i s = none → Sat stops P (rule (s.accept i))) : Sat stops P (issued i s rule) := by
  rcases issued_cases i s rule with ⟨resp, _, e⟩ | ⟨h, e⟩ <;> rw [e]
  · exact rejected resp
  · exact accepted h

theorem sat_runMicro (keeps : ∀ u, P u → Sat stops P (micro u)) (n : Nat) (h : P s) : Sat stops P (runMicro n s) := by
  induction n generalizing s with
  | zero => exact h
  | succ n ih =>
    rw [runMicro_succ]
    split
    · exact sat_andThen (keeps s h) fun t ht => ih ht
    · exact h

theorem sat_goOn (keeps : ∀ u, P u → Sat stops P (micro u)) (h : P s) : Sat stops P (goOn s) :=
  sat_runMicro keeps s.pace h

/-- The step: a micro-step, a command issued, an illegal word, or one of the host's other moves (R10). -/
theorem sat_step (core : ∀ moves, Sat stops P (micro { s with moves := moves }))
    (issue : ∀ cw wdata rest i, s.moves = .issue cw wdata :: rest → decode cw wdata = .ok i →
      Sat stops P (exec i { s with moves := rest }))
    (illegal : ∀ rest, P (({ s with moves := rest } : State).respond rejIllegal 0))
    (streams : ∀ moves inq outq answers,
      P { s with moves := moves, inq := inq, outq := outq, sinkAnswers := answers })
    (reset : ∀ rest, s.moves = .reset :: rest → P ({ s with moves := rest } : State).cleared) :
    Sat stops P (step s) := by
  rcases step_cases s with ⟨_, e⟩ | ⟨m, rest, hm, e⟩ <;> rw [e]
  · exact core s.moves
  · cases m with
    | issue cw wdata =>
      rw [takeMove]
      rcases issueWord_cases cw wdata { s with moves := rest } with ⟨_, _, e⟩ | ⟨i, hd, e⟩ <;> rw [e]
      · exact illegal rest
      · exact issue cw wdata rest i hm hd
    | core => exact core rest
    | push it => exact streams rest (s.inq ++ [it]) s.outq s.sinkAnswers
    | take => exact streams rest s.inq s.outq.tail s.sinkAnswers
    | answer a => exact streams rest s.inq s.outq (s.sinkAnswers ++ [a])
    | reset => exact reset rest hm

end Sat

end Sys2Proof.Machine

/-! SUPPORT. The parts of the invariant, and the updates of the state that keep them. -/

namespace Sys2Proof.Machine

open Sys2Proof.Safety

/-- The part of the invariant that does not speak of the phase: it is about the tables, the flags and the accumulators. -/
structure Regular (s : State) : Prop where
  total : s.total.toNat = freqSum s.freq
  nnodes : s.nodes.length ≤ Config.nodeCap
  book : s.bv = true → s.tv = true
  ended : s.fin = true → s.tv = true
  shape : s.shape ≠ 3
  noTree : s.tv = false → s.shape = 0 ∧ s.root = Config.nil
  cause : (if s.err then errorPairs.contains (s.errcode, s.errsub) else s.errcode == 0 && s.errsub == 0) = true
  code : codesTidy s.code
  pq : s.pq = []
  acc : s.acc.toNat < 2 ^ s.nacc.toNat
  dbits : s.dbits.toNat ≤ 8

variable {s t : State}

theorem flagsOk_iff : flagsOk s = true ↔
    (s.bv = true → s.tv = true) ∧ (s.fin = true → s.tv = true) ∧ s.shape ≠ 3 ∧
      (s.tv = false → s.shape = 0 ∧ s.root = Config.nil) ∧
      (if s.err then errorPairs.contains (s.errcode, s.errsub) else s.errcode == 0 && s.errsub == 0) = true ∧
      phaseOk s = true := by
  unfold flagsOk
  generalize (if s.err then _ else _ : Bool) = cause
  cases s.bv <;> cases s.fin <;> cases s.tv <;> simp [and_assoc]

theorem inv_iff : Inv s ↔ Regular s ∧ phaseOk s = true := by
  constructor
  · rintro ⟨total, nnodes, flags, code, pq, acc, dbits⟩
    obtain ⟨book, ended, shape, noTree, cause, phase⟩ := flagsOk_iff.1 flags
    exact ⟨⟨total, nnodes, book, ended, shape, noTree, cause, code, pq, acc, dbits⟩, phase⟩
  · rintro ⟨h, phase⟩
    exact ⟨h.total, h.nnodes, flagsOk_iff.2 ⟨h.book, h.ended, h.shape, h.noTree, h.cause, phase⟩, h.code, h.pq, h.acc,
      h.dbits⟩

theorem phaseOk_idle (h : s.phase = .idle) : phaseOk s = true := by simp [phaseOk, h]

theorem Regular.inv_idle (h : Regular s) (hp : s.phase = .idle) : Inv s := inv_iff.2 ⟨h, phaseOk_idle hp⟩

/-! ### Updates that touch no part of the invariant, or one part only -/

theorem Regular.popped (h : Regular s) (it : Item) (rest : List Item) : Regular (s.popped it rest) := { h with }

theorem Regular.pushed (h : Regular s) (b : Byte) : Regular (s.pushed b) := { h with }

theorem Regular.answered (h : Regular s) : Regular s.answered := { h with }

theorem Regular.accept (h : Regular s) (i : Instr) : Regular (s.accept i) := { h with }

theorem Regular.withPhase (h : Regular s) (p : Phase) : Regular { s with phase := p } := { h with }

theorem Regular.withFv (h : Regular s) : Regular { s with fv := true } := { h with }

theorem Regular.emptyAcc (h : Regular s) : Regular s.emptyAcc := { h with acc := by simp }

theorem Regular.withFin (h : Regular s) (ht : s.tv = true) : Regular { s with fin := true } :=
  { h with ended := fun _ => ht }

/-- A command that completes leaves the invariant's phase part with nothing to say (R8). -/
theorem Regular.finish (h : Regular s) : Inv s.finish := Regular.inv_idle { h with } rfl

/-- Every cause is a pair of R266. -/
theorem mem_errorPairs (e : Err) : errorPairs.contains (e.code, e.sub) = true := by cases e <;> decide

/-- Taking an error latches a pair of R266 and ends the command (R275). -/
theorem Regular.raise (h : Regular s) (e : Err) : Inv (s.raise e) :=
  Regular.inv_idle { h with cause := mem_errorPairs e } rfl

/-- A response is no part of the invariant (R92). -/
@[simp] theorem inv_respond (resp : BitVec 4) (v : Data) : Inv (s.respond resp v) ↔ Inv s := Iff.rfl

/-! ### FREQ and TOTAL (R27) -/

/-- The sum of FREQ with one entry apart. -/
theorem freqSum_split (freq : Vector Data 256) (b : Byte) :
    freqSum freq = (entry freq b).toNat + ((symbols.erase b).map fun a => (entry freq a).toNat).sum := by
  unfold freqSum
  rw [((List.perm_cons_erase (mem_symbols b)).map _).sum_eq, List.map_cons, List.sum_cons]

theorem entry_le_freqSum (freq : Vector Data 256) (b : Byte) : (entry freq b).toNat ≤ freqSum freq := by
  rw [freqSum_split freq b]
  exact Nat.le_add_right _ _

theorem freqSum_setEntry (freq : Vector Data 256) (b : Byte) (x : Data) :
    freqSum (setEntry freq b x) = freqSum freq - (entry freq b).toNat + x.toNat := by
  have others : ((symbols.erase b).map fun a => (entry (setEntry freq b x) a).toNat) =
      (symbols.erase b).map fun a => (entry freq a).toNat :=
    List.map_congr_left fun a ha => by rw [entry_setEntry_ne freq x ((nodup_symbols.mem_erase_iff.1 ha).1)]
  rw [freqSum_split _ b, others, entry_setEntry_same, freqSum_split freq b]
  omega

theorem Regular.counted (h : Regular s) (b : Byte) (ht : s.total ≠ BitVec.allOnes 64) : Regular (s.counted b) := by
  have small : s.total.toNat + 1 < 2 ^ 64 := by
    have := s.total.isLt
    have : s.total.toNat ≠ 2 ^ 64 - 1 := fun e => ht (BitVec.eq_of_toNat_eq (by simpa using e))
    omega
  have le : (entry s.freq b).toNat ≤ s.total.toNat := h.total ▸ entry_le_freqSum s.freq b
  refine { h with total := ?_ }
  show (s.total + 1).toNat = freqSum (setEntry s.freq b (entry s.freq b + 1))
  rw [freqSum_setEntry, BitVec.toNat_add, BitVec.toNat_add, ← h.total]
  simp
  omega

/-- LDF's total is in range when it is accepted, and then it is the new sum (R121). -/
theorem Regular.loaded (h : Regular s) (b : Byte) (count : Data) (hr : ldfTotal b count s < 2 ^ 64) :
    Regular { s with freq := setEntry s.freq b count, total := BitVec.ofNat 64 (ldfTotal b count s), fv := true } := by
  refine { h with total := ?_ }
  show (BitVec.ofNat 64 (ldfTotal b count s)).toNat = freqSum (setEntry s.freq b count)
  rw [freqSum_setEntry, ← h.total, BitVec.toNat_ofNat, Nat.mod_eq_of_lt hr, ldfTotal]

end Sys2Proof.Machine

/-! SUPPORT. Every micro-step keeps the invariant. -/

namespace Sys2Proof.Machine

open Sys2Proof.Safety

variable {s : State}

theorem sat_inv_profMicro (h : Inv s) (hp : s.phase = .profPop) : Sat True Inv (profMicro s) := by
  obtain ⟨hr, hph⟩ := inv_iff.1 h
  refine sat_inPop h (fun b rest => ?_) (fun rest => (hr.popped .eos rest).withFv.finish)
    fun rest => (hr.popped .fail rest).raise _
  dsimp only
  split
  · exact (hr.popped _ _).raise _
  · next ht => exact inv_iff.2 ⟨(hr.popped _ _).counted b ht, by simpa [phaseOk, hp] using hph⟩

/-- TSER stands at its next OutPush or is complete (R176). -/
theorem inv_serGoOn (h : Regular s) (he : s.err = false) (ht : s.tv = true) (hc : s.curop = 0x40) (todo : List SerWork) :
    Inv (serGoOn todo s) := by
  cases todo with
  | nil => exact h.finish
  | cons w todo => exact inv_iff.2 ⟨h.withPhase _, by simp [serGoOn, phaseOk, he, ht, hc]⟩

theorem sat_inv_serMicro {todo : List SerWork} (h : Inv s) (hp : s.phase = .serPush todo) :
    Sat True Inv (serMicro todo s) := by
  obtain ⟨hr, hph⟩ := inv_iff.1 h
  obtain ⟨⟨⟨he, ht⟩, _⟩, hc⟩ : ((s.err = false ∧ s.tv = true) ∧ _) ∧ s.curop = 0x40 := by simpa [phaseOk, hp] using hph
  have push (b : Byte) (todo : List SerWork) : Sat True Inv (outPush b s fun s => .next (serGoOn todo s)) :=
    sat_outPush h (inv_serGoOn (hr.pushed b) he ht hc todo) (hr.answered.raise _)
  cases todo with
  | nil => exact hr.finish
  | cons w rest =>
    cases w with
    | sym b => exact push b rest
    | node i =>
      rw [serMicro]
      split
      · trivial
      · exact push _ _
      · exact push _ _

/-- GetByte gives the byte, or raises an error (R178). -/
theorem sat_inv_getByte {k : Byte → State → Result} (h : Inv s)
    (byte : ∀ b rest, Sat True Inv (k b (s.popped (.byte b) rest))) : Sat True Inv (getByte s k) :=
  have hr := (inv_iff.1 h).1
  sat_inPop h byte (fun rest => (hr.popped .eos rest).raise _) fun rest => (hr.popped .fail rest).raise _

/-- What the flags say while TDES runs (R97). -/
structure ReadingTree (s : State) : Prop where
  err : s.err = false
  fv : s.fv = false
  tv : s.tv = false
  curop : s.curop = 0x41

theorem phaseOk_desTag (h : ReadingTree s) (stack : List DesFrame) : phaseOk { s with phase := .desTag stack } = true := by
  simp [phaseOk, h.err, h.fv, h.tv, h.curop]

theorem readingTree_of_desRoot (h : phaseOk s = true) (hp : s.phase = .desRoot) : ReadingTree s ∧ s.nodes = [] := by
  obtain ⟨⟨⟨⟨he, hf⟩, ht⟩, hn⟩, hc⟩ :
      (((s.err = false ∧ s.fv = false) ∧ s.tv = false) ∧ s.nodes = []) ∧ s.curop = 0x41 := by
    simpa [phaseOk, hp] using h
  exact ⟨⟨he, hf, ht, hc⟩, hn⟩

theorem readingTree_of_desTag {stack : List DesFrame} (h : phaseOk s = true) (hp : s.phase = .desTag stack) :
    ReadingTree s := by
  obtain ⟨⟨⟨he, hf⟩, ht⟩, hc⟩ : ((s.err = false ∧ s.fv = false) ∧ s.tv = false) ∧ s.curop = 0x41 := by
    simpa [phaseOk, hp] using h
  exact ⟨he, hf, ht, hc⟩

theorem readingTree_of_desSym {stack : List DesFrame} (h : phaseOk s = true) (hp : s.phase = .desSym stack) :
    ReadingTree s ∧ s.nodes.length < 511 := by
  obtain ⟨⟨⟨⟨he, hf⟩, ht⟩, hn⟩, hc⟩ :
      (((s.err = false ∧ s.fv = false) ∧ s.tv = false) ∧ s.nodes.length < 511) ∧ s.curop = 0x41 := by
    simpa [phaseOk, hp] using h
  exact ⟨⟨he, hf, ht, hc⟩, hn⟩

theorem Regular.allocated (h : Regular s) (n : Node) (hn : s.nodes.length < 511) : Regular (s.allocated n) :=
  have : (s.nodes ++ [n]).length ≤ 511 := by rw [List.length_append]; exact hn
  { h with nnodes := this }

theorem Regular.modifyNode (h : Regular s) (i : NodeIdx) (f : Node → Node) : Regular (s.modifyNode i f) :=
  { h with nnodes := by simpa using h.nnodes }

theorem Regular.treeRead (h : Regular s) (root : NodeIdx) {shape : BitVec 2} (hs : shape ≠ 3) :
    Inv (s.treeRead root shape) :=
  Regular.finish { h with book := fun _ => rfl, ended := fun _ => rfl, shape := hs, noTree := nofun }

theorem inv_desReturn (r : NodeIdx) (stack : List DesFrame) (s : State) (h : Regular s) (hd : ReadingTree s) :
    Inv (desReturn r stack s) := by
  induction stack generalizing r s with
  | nil => exact h.treeRead r (by decide)
  | cons f stack ih =>
    cases f with
    | lone => exact (h.modifyNode _ _).treeRead 0 (by decide)
    | left i => exact inv_iff.2 ⟨(h.modifyNode _ _).withPhase _, phaseOk_desTag (s := s.modifyNode i _) { hd with } _⟩
    | right i => exact ih i _ (h.modifyNode _ _) { hd with }

theorem sat_inv_desRootMicro (h : Inv s) (hp : s.phase = .desRoot) : Sat True Inv (desRootMicro s) := by
  obtain ⟨hr, hph⟩ := inv_iff.1 h
  obtain ⟨hd, hn⟩ := readingTree_of_desRoot hph hp
  refine sat_inv_getByte h fun t rest => ?_
  dsimp only
  split
  · exact (hr.popped _ _).raise _
  · exact inv_iff.2 ⟨((hr.popped _ _).allocated _ (by simp [hn])).withPhase _,
      phaseOk_desTag (s := (s.popped _ rest).allocated _) { hd with } _⟩

theorem sat_inv_desTagMicro {stack : List DesFrame} (h : Inv s) (hp : s.phase = .desTag stack) :
    Sat True Inv (desTagMicro stack s) := by
  obtain ⟨hr, hph⟩ := inv_iff.1 h
  have hd := readingTree_of_desTag hph hp
  refine sat_inv_getByte h fun t rest => ?_
  dsimp only
  split
  · exact (hr.popped _ _).raise _
  split
  · exact (hr.popped _ _).raise _
  next hn =>
  have hn : s.nodes.length < 511 := lt_of_le_of_ne hr.nnodes hn
  split
  · exact inv_iff.2 ⟨(hr.popped _ _).withPhase _, by simp [phaseOk, hd.err, hd.fv, hd.tv, hd.curop, hn]⟩
  · exact inv_iff.2 ⟨((hr.popped _ _).allocated _ hn).withPhase _,
      phaseOk_desTag (s := (s.popped _ rest).allocated _) { hd with } _⟩

theorem sat_inv_desSymMicro {stack : List DesFrame} (h : Inv s) (hp : s.phase = .desSym stack) :
    Sat True Inv (desSymMicro stack s) := by
  obtain ⟨hr, hph⟩ := inv_iff.1 h
  obtain ⟨hd, hn⟩ := readingTree_of_desSym hph hp
  refine sat_inv_getByte h fun b rest => inv_desReturn _ stack _ ?_ { hd with }
  exact { (hr.popped _ rest).allocated (.leaf b 0) hn with }

/-- What the flags say while ENC runs (R97). -/
structure Encoding (s : State) : Prop where
  err : s.err = false
  bv : s.bv = true
  fin : s.fin = false
  curop : s.curop = 0x50

theorem phaseOk_encPop (h : Encoding s) : phaseOk { s with phase := .encPop } = true := by
  simp [phaseOk, h.err, h.bv, h.fin, h.curop]

theorem encoding_of_encPop (h : phaseOk s = true) (hp : s.phase = .encPop) : Encoding s := by
  obtain ⟨⟨⟨he, hb⟩, hf⟩, hc⟩ : ((s.err = false ∧ s.bv = true) ∧ s.fin = false) ∧ s.curop = 0x50 := by
    simpa [phaseOk, hp] using h
  exact ⟨he, hb, hf, hc⟩

theorem encoding_of_encPush {v : Bool} {rest : List Bool} (h : phaseOk s = true) (hp : s.phase = .encPush v rest) :
    Encoding s := by
  obtain ⟨⟨⟨⟨he, hb⟩, hf⟩, _⟩, hc⟩ : (((s.err = false ∧ s.bv = true) ∧ s.fin = false) ∧ _) ∧ s.curop = 0x50 := by
    simpa [phaseOk, hp] using h
  exact ⟨he, hb, hf, hc⟩

theorem encoding_of_encFlush (h : phaseOk s = true) (hp : s.phase = .encFlush) : Encoding s := by
  obtain ⟨⟨⟨⟨he, hb⟩, hf⟩, _⟩, hc⟩ : (((s.err = false ∧ s.bv = true) ∧ s.fin = false) ∧ _) ∧ s.curop = 0x50 := by
    simpa [phaseOk, hp] using h
  exact ⟨he, hb, hf, hc⟩

theorem inv_putBits (h : Regular s) (he : Encoding s) (bits : List Bool) : Inv (putBits bits s) := by
  have hr : Regular (putBits bits s) := by
    rw [putBits_frame]
    exact { h with acc := putBits_acc bits s h.acc }
  refine inv_iff.2 ⟨hr, ?_⟩
  rcases putBits_phase bits s with ⟨v, rest, _, hp, hn⟩ | hp <;> rw [putBits_frame, hp]
  · simp [phaseOk, he.err, he.bv, he.fin, he.curop, hn]
  · exact phaseOk_encPop (s := { s with acc := _, nacc := _ }) { he with }

theorem inv_encDone (h : Regular s) (he : Encoding s) : Inv s.encDone :=
  (h.emptyAcc.withFin (h.book he.bv)).finish

theorem sat_inv_encPopMicro (h : Inv s) (hp : s.phase = .encPop) : Sat True Inv (encPopMicro s) := by
  obtain ⟨hr, hph⟩ := inv_iff.1 h
  have he := encoding_of_encPop hph hp
  refine sat_inPop h (fun b rest => ?_) (fun rest => ?_) fun rest => (hr.popped .fail rest).raise _ <;> dsimp only <;> split
  · exact (hr.popped _ _).raise _
  · exact inv_putBits (hr.popped _ rest) { he with } _
  · exact inv_encDone (hr.popped _ rest) { he with }
  · next hn => exact inv_iff.2 ⟨(hr.popped _ _).withPhase _, by simpa [phaseOk, he.err, he.bv, he.fin, he.curop] using hn⟩

theorem sat_inv_encPushMicro {v : Bool} {rest : List Bool} (h : Inv s) (hp : s.phase = .encPush v rest) :
    Sat True Inv (encPushMicro v rest s) :=
  have ⟨hr, hph⟩ := inv_iff.1 h
  have he := encoding_of_encPush hph hp
  sat_outPush h (inv_putBits (hr.pushed _).emptyAcc { he with } rest) (hr.answered.raise _)

theorem sat_inv_encFlushMicro (h : Inv s) (hp : s.phase = .encFlush) : Sat True Inv (encFlushMicro s) :=
  have ⟨hr, hph⟩ := inv_iff.1 h
  have he := encoding_of_encFlush hph hp
  sat_outPush h (inv_encDone (hr.pushed _) { he with }) (hr.answered.raise _)

/-- What the flags say while DEC runs (R97). -/
structure Decoding (s : State) : Prop where
  err : s.err = false
  tv : s.tv = true
  fin : s.fin = false
  curop : s.curop = 0x51

theorem phaseOk_decPop (h : Decoding s) : phaseOk { s with phase := .decPop } = true := by
  simp [phaseOk, h.err, h.tv, h.fin, h.curop]

theorem phaseOk_decPush (h : Decoding s) (sym : Byte) : phaseOk { s with phase := .decPush sym } = true := by
  simp [phaseOk, h.err, h.tv, h.fin, h.curop]

theorem decoding_of_decPop (h : phaseOk s = true) (hp : s.phase = .decPop) : Decoding s := by
  obtain ⟨⟨⟨he, ht⟩, hf⟩, hc⟩ : ((s.err = false ∧ s.tv = true) ∧ s.fin = false) ∧ s.curop = 0x51 := by
    simpa [phaseOk, hp] using h
  exact ⟨he, ht, hf, hc⟩

theorem decoding_of_decPush {sym : Byte} (h : phaseOk s = true) (hp : s.phase = .decPush sym) : Decoding s := by
  obtain ⟨⟨⟨he, ht⟩, hf⟩, hc⟩ : ((s.err = false ∧ s.tv = true) ∧ s.fin = false) ∧ s.curop = 0x51 := by
    simpa [phaseOk, hp] using h
  exact ⟨he, ht, hf, hc⟩

theorem bitTaken_dbits_toNat {n : Nat} (hn : n + 1 ≤ s.dbits.toNat) : s.bitTaken.dbits.toNat = s.dbits.toNat - 1 := by
  rw [State.bitTaken_dbits]
  bv_omega

/-- The walk takes no more bits than DBITS has (R205, R206). -/
theorem sat_inv_decBits (n : Nat) (s : State) (h : Regular s) (hd : Decoding s) (hn : n ≤ s.dbits.toNat) :
    Sat True Inv (decBits n s) := by
  induction n generalizing s with
  | zero => exact inv_iff.2 ⟨h.withPhase _, phaseOk_decPop hd⟩
  | succ n ih =>
    have taken := bitTaken_dbits_toNat hn
    have hr : Regular s.bitTaken := { h with dbits := by have := h.dbits; omega }
    rw [decBits]
    rcases walkBit_cases s.dbyte.msb s.bitTaken (decBits n) with e | e | ⟨c, sym, e⟩ | ⟨c, e⟩ <;> rw [e]
    · trivial
    · exact hr.raise _
    · exact inv_iff.2 ⟨{ hr with }, phaseOk_decPush (s := { s.bitTaken with cur := c }) { hd with } sym⟩
    · exact ih _ { hr with } { hd with } (show n ≤ s.bitTaken.dbits.toNat by omega)

theorem sat_inv_decNext (h : Regular s) (hd : Decoding s) : Sat True Inv (decNext s) := by
  unfold decNext
  split
  · unfold decSymbol
    split
    · exact h.raise _
    · exact sat_inv_decBits _ _ { h with } { hd with } le_rfl
  · exact (h.withFin hd.tv).finish

theorem sat_inv_decPopMicro (h : Inv s) (hp : s.phase = .decPop) : Sat True Inv (decPopMicro s) := by
  obtain ⟨hr, hph⟩ := inv_iff.1 h
  have hd := decoding_of_decPop hph hp
  refine sat_inPop h (fun b rest => ?_) (fun rest => (hr.popped .eos rest).raise _) fun rest =>
    (hr.popped .fail rest).raise _
  exact sat_inv_decBits 8 _ { hr with dbits := le_refl 8 } { hd with } (by simp)

theorem sat_inv_decPushMicro {sym : Byte} (h : Inv s) (hp : s.phase = .decPush sym) :
    Sat True Inv (decPushMicro sym s) :=
  have ⟨hr, hph⟩ := inv_iff.1 h
  have hd := decoding_of_decPush hph hp
  sat_outPush h (sat_inv_decNext { hr with } { hd with }) (hr.answered.raise _)

/-- No micro-step breaks the invariant, whatever the command that runs. -/
theorem sat_inv_micro (h : Inv s) : Sat True Inv (micro s) := by
  cases hp : s.phase with
  | idle => rw [micro_idle hp]; exact h
  | profPop => rw [micro_profPop hp]; exact sat_inv_profMicro h hp
  | serPush todo => rw [micro_serPush hp]; exact sat_inv_serMicro h hp
  | desRoot => rw [micro_desRoot hp]; exact sat_inv_desRootMicro h hp
  | desTag stack => rw [micro_desTag hp]; exact sat_inv_desTagMicro h hp
  | desSym stack => rw [micro_desSym hp]; exact sat_inv_desSymMicro h hp
  | encPop => rw [micro_encPop hp]; exact sat_inv_encPopMicro h hp
  | encPush v rest => rw [micro_encPush hp]; exact sat_inv_encPushMicro h hp
  | encFlush => rw [micro_encFlush hp]; exact sat_inv_encFlushMicro h hp
  | decPop => rw [micro_decPop hp]; exact sat_inv_decPopMicro h hp
  | decPush sym => rw [micro_decPush hp]; exact sat_inv_decPushMicro h hp

end Sys2Proof.Machine

/-! SUPPORT. Every command keeps the invariant, and so does every step. -/

namespace Sys2Proof.Machine

open Sys2Proof.Safety

variable {s : State}

/-- A command that may not overlap a running one was accepted in an idle state, under its conditions (R96). -/
theorem idle_of_checks {i : Instr} (h : checks i s = none) (ho : mayOverlap i = false) :
    s.phase = .idle ∧ i.wf = true ∧ seqOk i s = true ∧ rangeOk i s = true := by
  obtain ⟨hw, hb, hs, hr⟩ := checks_eq_none.1 h
  have hb : s.busy = false := by simpa [ho] using hb
  exact ⟨by simpa [State.busy] using hb, hw, hs, hr⟩

/-! ### BUILD -/

/-- What every merge keeps, the whole tree builder keeps (R140). -/
theorem mergeAll_keeps {P : Forest → Prop} (merge : ∀ f, P f → 1 < f.pq.length → P f.merge) (n : Nat) (f : Forest)
    (h : P f) : P (f.mergeAll n) := by
  induction n generalizing f with
  | zero => exact h
  | succ n ih =>
    unfold Forest.mergeAll
    split
    · next hl => exact ih _ (merge f h hl)
    · exact h

theorem mergeAll_pq_le_one (n : Nat) (f : Forest) (h : f.pq.length ≤ n + 1) : (f.mergeAll n).pq.length ≤ 1 := by
  induction n generalizing f with
  | zero => exact h
  | succ n ih =>
    unfold Forest.mergeAll
    split
    · next hl => exact ih _ (by have := (length_merge hl).2; omega)
    · omega

theorem foldl_insertPq_perm (nodes : List Node) (xs pq : List NodeIdx) :
    (xs.foldl (insertPq nodes) pq).Perm (xs ++ pq) := by
  induction xs generalizing pq with
  | nil => exact .refl _
  | cons x xs ih => exact (ih _).trans (((insertPq_perm nodes pq x).append_left xs).trans List.perm_middle)

/-- PQ holds each leaf once before the first merge (R140, R141). -/
theorem ofLeaves_pq_perm (leaves : List Node) :
    (Forest.ofLeaves leaves).pq.Perm ((List.range leaves.length).map (BitVec.ofNat 9)) := by
  simpa [Forest.ofLeaves] using foldl_insertPq_perm leaves ((List.range leaves.length).map (BitVec.ofNat 9)) []

theorem ofLeaves_pq_length (leaves : List Node) : (Forest.ofLeaves leaves).pq.length = leaves.length := by
  simpa using (ofLeaves_pq_perm leaves).length_eq

theorem grown_keeps {P : Forest → Prop} (merge : ∀ f, P f → 1 < f.pq.length → P f.merge) {leaves : List Node}
    (h : P (Forest.ofLeaves leaves)) : P (Forest.grown leaves) :=
  mergeAll_keeps merge leaves.length _ h

/-- A merge trades two elements of PQ for a node and an element (R143), so n leaves grow to 2n - 1 nodes with one element
left in PQ (R147). -/
theorem grown_length {leaves : List Node} (h : leaves ≠ []) :
    (Forest.grown leaves).pq.length = 1 ∧ (Forest.grown leaves).nodes.length + 1 = 2 * leaves.length := by
  have count : (Forest.grown leaves).nodes.length + (Forest.grown leaves).pq.length = 2 * leaves.length ∧
      0 < (Forest.grown leaves).pq.length := by
    refine grown_keeps
      (P := fun f => f.nodes.length + f.pq.length = 2 * leaves.length ∧ 0 < f.pq.length) (fun f hf hl => ?_) ?_
    · have ⟨_, _⟩ := length_merge hl
      omega
    · rw [ofLeaves_pq_length, show (Forest.ofLeaves leaves).nodes = leaves from rfl]
      have := List.length_pos_iff.2 h
      omega
  have one : (Forest.grown leaves).pq.length ≤ 1 :=
    mergeAll_pq_le_one _ _ (by rw [ofLeaves_pq_length]; omega)
  omega

theorem makeLeaves_length (freq : Vector Data 256) : (makeLeaves freq).length = distinct freq := by
  simp [makeLeaves, distinct]

theorem distinct_le (freq : Vector Data 256) : distinct freq ≤ 256 := by
  simpa [distinct] using List.length_filter_le (fun b => entry freq b != 0) symbols

/-- BUILD writes NODE, ROOT, NSYM, SHAPE, TV and PQ only (R140). -/
theorem built_frame (s : State) :
    s.built = { s with
      nodes := s.built.nodes, root := s.built.root, nsym := s.built.nsym, shape := s.built.shape, pq := s.built.pq
      tv := true } := by
  simp only [State.built]
  split <;> rfl

/-- BUILD stays within the NODE table (R147). -/
theorem built_nodes_length (s : State) : s.built.nodes.length ≤ 511 := by
  have few : (makeLeaves s.freq).length ≤ 256 := makeLeaves_length s.freq ▸ distinct_le s.freq
  simp only [State.built]
  split
  · exact Nat.zero_le _
  · exact show 2 ≤ 511 by decide
  · next hm =>
    have := (grown_length (leaves := makeLeaves s.freq) (by simp [hm])).2
    exact show (Forest.grown (makeLeaves s.freq)).nodes.length ≤ 511 by omega

theorem built_shape_ne (s : State) : s.built.shape ≠ 3 := by
  simp only [State.built]
  split
  · exact show (0 : BitVec 2) ≠ 3 by decide
  · exact show (1 : BitVec 2) ≠ 3 by decide
  · exact show (2 : BitVec 2) ≠ 3 by decide

/-- PQ is empty outside BUILD (R34). -/
theorem built_pq (h : s.pq = []) : s.built.pq = [] := by
  simp only [State.built]
  split
  · exact h
  · exact h
  · rfl

theorem Regular.built (h : Regular s) : Regular s.built := by
  rw [built_frame]
  exact { h with
    nnodes := built_nodes_length s, book := fun _ => rfl, ended := fun _ => rfl, shape := built_shape_ne s
    noTree := nofun, pq := built_pq h.pq }

theorem sat_inv_execBuild (h : Inv s) : Sat True Inv (execBuild s) := by
  refine sat_issued (fun _ => h) fun hc => ?_
  obtain ⟨hi, _⟩ := idle_of_checks hc rfl
  have hr := ((inv_iff.1 h).1.accept .build).built
  exact (inv_respond respOk 0).2 (hr.inv_idle ((built_phase _).trans hi))

/-! ### GEN -/

theorem codesTidy_emptyCode : codesTidy emptyCode := by
  intro b k _ _
  simp [emptyCode]

theorem codesTidy_setEntry {code : Vector Code 256} (h : codesTidy code) (sym : Byte) {q : List Bool}
    (hq : q.length ≤ 255) : codesTidy (setEntry code sym (Code.ofPath q)) := by
  intro b k hl hk
  rw [entry_setEntry] at hl ⊢
  split at hl
  · rw [if_pos ‹_›]
    exact tidy_ofPath q k (len_ofPath q hq ▸ hl) hk
  · rw [if_neg ‹_›]
    exact h b k hl hk

theorem codesTidy_codeOfPath {code : Vector Code 256} (h : codesTidy code) (sym : Byte) {p : List Bool}
    (hp : p.length ≤ 255) : codesTidy (setEntry code sym (codeOfPath p)) := by
  refine codesTidy_setEntry h sym ?_
  split
  · decide
  · exact hp

/-- The levels left and the path so far make up PATH, so no code is longer than 255 (R163). -/
theorem walk_tidy (nodes : List Node) (n : Nat) (i : NodeIdx) (p : List Bool) (code code' : Vector Code 256)
    (hp : p.length + n ≤ 256) (h : codesTidy code) (hw : walk nodes n i p code = .ok code') : codesTidy code' := by
  induction n generalizing i p code code' with
  | zero => cases hw
  | succ n ih =>
    have child (b : Bool) : (p ++ [b]).length + n ≤ 256 := by rw [List.length_append, List.length_singleton]; omega
    rw [walk] at hw
    split at hw
    · cases hw
    · cases hw
      exact codesTidy_codeOfPath h _ (by omega)
    · next l r _ =>
      split at hw
      · cases hw
      · next code₁ hl =>
        have tidy₁ : codesTidy code₁ := by
          split at hl
          · cases hl; exact h
          · exact ih _ _ _ _ (child false) h hl
        split at hw
        · cases hw; exact tidy₁
        · exact ih _ _ _ _ (child true) tidy₁ hw

theorem sat_inv_execGen (h : Inv s) : Sat True Inv (execGen s) := by
  refine sat_issued (fun _ => h) fun hc => ?_
  obtain ⟨hi, _, hs, _⟩ := idle_of_checks hc rfl
  obtain ⟨⟨_, ht⟩, _⟩ : (s.err = false ∧ s.tv = true) ∧ s.bv = false := by simpa [seqOk] using hs
  have hr := (inv_iff.1 h).1
  have generated (code : Vector Code 256) (walked : Bool) (tidy : codesTidy code) :
      Inv (((s.accept .gen).generated code walked).respond respOk 0) :=
    Regular.inv_idle { hr with book := fun _ => ht, code := tidy } hi
  split
  · exact generated _ _ codesTidy_emptyCode
  · split
    · next code hw => exact generated code true (walk_tidy _ _ _ _ _ _ (by decide) codesTidy_emptyCode hw)
    · trivial

/-! ### The other commands -/

theorem sat_inv_goOn (h : Inv s) : Sat True Inv (goOn s) := sat_goOn (fun _ => sat_inv_micro) h

theorem sat_inv_execProf (h : Inv s) : Sat True Inv (execProf s) := by
  refine sat_issued (fun _ => h) fun hc => ?_
  obtain ⟨_, _, hs, _⟩ := idle_of_checks hc rfl
  obtain ⟨⟨he, hf⟩, ht⟩ : (s.err = false ∧ s.fv = false) ∧ s.tv = false := by simpa [seqOk] using hs
  refine sat_inv_goOn (inv_iff.2 ⟨((inv_iff.1 h).1.accept _).withPhase _, ?_⟩)
  simp [phaseOk, he, hf, ht, isRead, Instr.opcode]

theorem sat_inv_execLdf (sym : Idx) (count : Data) (h : Inv s) : Sat True Inv (execLdf sym count s) := by
  refine sat_issued (fun _ => h) fun hc => ?_
  obtain ⟨hi, _, _, hr⟩ := idle_of_checks hc rfl
  have hr : ldfTotal (symbolOf sym) count s < 2 ^ 64 := by
    rw [rangeOk, Bool.and_eq_true, decide_eq_true_eq, decide_eq_true_eq] at hr
    exact hr.2
  exact Regular.inv_idle { (inv_iff.1 h).1.loaded (symbolOf sym) count hr with } hi

theorem sat_inv_execTser (h : Inv s) : Sat True Inv (execTser s) := by
  refine sat_issued (fun _ => h) fun hc => ?_
  obtain ⟨_, _, hs, _⟩ := idle_of_checks hc rfl
  obtain ⟨he, ht⟩ : s.err = false ∧ s.tv = true := by simpa [seqOk] using hs
  exact sat_inv_goOn (inv_serGoOn ((inv_iff.1 h).1.accept _) he ht rfl _)

/-- TDES starts with an empty table (R177). -/
theorem inv_desStart (h : Regular s) (hd : ReadingTree s) (shape : BitVec 2) : Inv (s.desStart shape) := by
  have hr : Regular { s with nodes := [], nsym := 0 } := { h with nnodes := Nat.zero_le _ }
  unfold State.desStart
  dsimp only
  split
  · exact hr.treeRead _ (by decide)
  split
  · exact inv_iff.2 ⟨hr.withPhase _, by simp [phaseOk, hd.err, hd.fv, hd.tv, hd.curop]⟩
  · exact inv_iff.2 ⟨hr.withPhase _, phaseOk_desTag (s := { s with nodes := [], nsym := 0 }) { hd with } _⟩

theorem sat_inv_execTdes (shape : BitVec 2) (h : Inv s) : Sat True Inv (execTdes shape s) := by
  refine sat_issued (fun _ => h) fun hc => ?_
  obtain ⟨_, _, hs, _⟩ := idle_of_checks hc rfl
  obtain ⟨⟨he, hf⟩, ht⟩ : (s.err = false ∧ s.fv = false) ∧ s.tv = false := by simpa [seqOk] using hs
  exact sat_inv_goOn (inv_desStart ((inv_iff.1 h).1.accept _) ⟨he, hf, ht, rfl⟩ shape)

theorem sat_inv_execEnc (h : Inv s) : Sat True Inv (execEnc s) := by
  refine sat_issued (fun _ => h) fun hc => ?_
  obtain ⟨_, _, hs, _⟩ := idle_of_checks hc rfl
  obtain ⟨⟨he, hb⟩, hf⟩ : (s.err = false ∧ s.bv = true) ∧ s.fin = false := by simpa [seqOk] using hs
  exact sat_inv_goOn (inv_iff.2 ⟨((inv_iff.1 h).1.accept _).emptyAcc.withPhase _,
    phaseOk_encPop (s := (s.accept .enc).emptyAcc) ⟨he, hb, hf, rfl⟩⟩)

theorem sat_inv_execDec (expected : Data) (h : Inv s) : Sat True Inv (execDec expected s) := by
  refine sat_issued (fun _ => h) fun hc => ?_
  obtain ⟨_, _, hs, _⟩ := idle_of_checks hc rfl
  obtain ⟨⟨he, ht⟩, hf⟩ : (s.err = false ∧ s.tv = true) ∧ s.fin = false := by simpa [seqOk] using hs
  exact sat_andThen
    (sat_inv_decNext { (inv_iff.1 h).1 with dbits := Nat.zero_le _ } ⟨he, ht, hf, rfl⟩) fun _ => sat_inv_goOn

theorem freqSum_zero : freqSum (Vector.replicate 256 0) = 0 :=
  List.sum_eq_zero fun x hx => by
    obtain ⟨b, _, rfl⟩ := List.mem_map.1 hx
    rw [entry_replicate]
    rfl

/-- Reset and CLR put every part of the invariant at its first value (R51). -/
theorem regular_cleared (s : State) : Regular s.cleared where
  total := freqSum_zero.symm
  nnodes := Nat.zero_le _
  book := nofun
  ended := nofun
  shape := show (0 : BitVec 2) ≠ 3 by decide
  noTree _ := ⟨rfl, rfl⟩
  cause := rfl
  code := codesTidy_emptyCode
  pq := rfl
  acc := show (0 : Byte).toNat < 2 ^ (0 : BitVec 3).toNat by decide
  dbits := Nat.zero_le _

/-- A read is accepted without a trace (R96 step 5). -/
theorem accept_read {i : Instr} (hi : isRead i = true) : s.accept i = s := by
  cases i <;> simp_all [State.accept, isRead, isStreaming]

/-- The rule of a read answers from the state it finds. -/
theorem issued_read {i : Instr} {rule : State → Result} (hi : isRead i = true)
    (answers : ∀ s, ∃ resp v, rule s = .next (s.respond resp v)) (s : State) :
    ∃ resp v, issued i s rule = .next (s.respond resp v) := by
  rcases issued_cases i s rule with ⟨resp, _, e⟩ | ⟨_, e⟩
  · exact ⟨resp, 0, e⟩
  · rw [e, accept_read hi]
    exact answers s

/-- A read answers, and does nothing else (R246 to R249). -/
theorem exec_read {i : Instr} (hi : isRead i = true) (s : State) :
    ∃ resp v, exec i s = .next (s.respond resp v) := by
  cases i with
  | rdr reg => exact issued_read hi (fun _ => ⟨_, _, rfl⟩) s
  | rdf sym => exact issued_read hi (fun _ => ⟨_, _, rfl⟩) s
  | rdn sel idx =>
    refine show ∃ resp v, execRdn sel idx s = .next (s.respond resp v) from issued_read hi (fun s => ?_) s
    split
    · exact ⟨_, _, rfl⟩
    · exact ⟨_, _, rfl⟩
  | rdc sel sym => exact issued_read hi (fun _ => ⟨_, _, rfl⟩) s
  | _ => cases hi

theorem sat_inv_exec (i : Instr) (h : Inv s) : Sat True Inv (exec i s) := by
  have read {i : Instr} (hi : isRead i = true) : Sat True Inv (exec i s) := by
    obtain ⟨resp, v, e⟩ := exec_read hi s
    exact e ▸ h
  cases i with
  | clr =>
    exact show Sat True Inv (execClr s) from
      sat_issued (fun _ => h) fun _ => Regular.inv_idle { regular_cleared s with } rfl
  | prof => exact sat_inv_execProf h
  | ldf sym count => exact sat_inv_execLdf sym count h
  | build => exact sat_inv_execBuild h
  | gen => exact sat_inv_execGen h
  | tser => exact sat_inv_execTser h
  | tdes shape => exact sat_inv_execTdes shape h
  | enc => exact sat_inv_execEnc h
  | dec expected => exact sat_inv_execDec expected h
  | rdr reg => exact read rfl
  | rdf sym => exact read rfl
  | rdn sel idx => exact read rfl
  | rdc sel sym => exact read rfl

theorem sat_inv_step (h : Inv s) : Sat True Inv (step s) :=
  sat_step (fun _ => sat_inv_micro h) (fun _ _ _ i _ _ => sat_inv_exec i h) (fun _ => h) (fun _ _ _ _ => h) fun _ _ =>
    (regular_cleared _).inv_idle rfl

/-- Settles O58: the invariant is kept by every micro-step, and so by the commands that run them, by the atomic commands, and
by the host's other moves, which touch no part of it. -/
theorem everyStepKeepsTheInvariant : Obligations.EveryStepKeepsTheInvariant :=
  fun _ _ h e => (sat_inv_step h).of_eq_next e

/-- Settles O59: the state after reset is the cleared state. -/
theorem resetMeetsTheInvariant : Obligations.ResetMeetsTheInvariant := (regular_cleared State.reset).inv_idle rfl

end Sys2Proof.Machine

/-! SUPPORT. The flags over a step: the validity flags only rise (10_state.md R23), and an error stays latched (R25). -/

namespace Sys2Proof.Machine

open Sys2Proof.Safety

variable {s u : State}

/-- Every command goes through the checks at issue, and a failed check is all that happens (R96). -/
theorem exec_of_fail {i : Instr} {resp : BitVec 4} (h : checks i s = some resp) :
    exec i s = .next (s.respond resp 0) := by
  cases i <;> simp only [exec, execClr, execProf, execLdf, execBuild, execGen, execTser, execTdes, execEnc, execDec,
    execRdr, execRdf, execRdn, execRdc, issued_of_fail h]

/-- The one word of CLR (R94). -/
theorem word_of_decode_clr {cw : Word} {wdata : Data} (h : decode cw wdata = .ok .clr) : cw = 0x01000000 := by
  obtain ⟨r, hr, hsel, hops⟩ := decode_row h
  have hop : r.op = .clr := (op_of_assembleOperands hops).symm
  have hrow : r = ⟨.clr, 0x01000000#32, 0xFFFFFFFF#32⟩ := by
    have only : ∀ r ∈ opcodeMap, r.op = .clr → r = ⟨.clr, 0x01000000#32, 0xFFFFFFFF#32⟩ := by decide
    exact only r hr hop
  subst hrow
  have hand : cw &&& BitVec.allOnes 32 = 0x01000000#32 := by simpa [Row.selects] using hsel
  rwa [BitVec.and_allOnes] at hand

/-- A step that starts no operation issues no CLR to an idle core. -/
theorem busy_of_issue_clr {cw : Word} {wdata : Data} {rest : List Move} (hs : startsOperation s = false)
    (hm : s.moves = .issue cw wdata :: rest) (hd : decode cw wdata = .ok .clr) : s.busy = true := by
  simpa [startsOperation, hm, word_of_decode_clr hd] using hs

theorem not_reset_of_startsOperation {rest : List Move} (hs : startsOperation s = false) : s.moves ≠ .reset :: rest := by
  intro hm
  simp [startsOperation, hm] at hs

/-! ### The validity flags -/

/-- FV, TV, BV and FIN of the first state stand in the second (R23). -/
def FlagsRise (s t : State) : Prop :=
  (s.fv = true → t.fv = true) ∧ (s.tv = true → t.tv = true) ∧ (s.bv = true → t.bv = true) ∧ (s.fin = true → t.fin = true)

theorem FlagsRise.refl (s : State) : FlagsRise s s := ⟨id, id, id, id⟩

theorem FlagsRise.withFv (h : FlagsRise s u) : FlagsRise s { u with fv := true } := ⟨fun _ => rfl, h.2⟩

theorem FlagsRise.withTv (h : FlagsRise s u) : FlagsRise s { u with tv := true } := ⟨h.1, fun _ => rfl, h.2.2⟩

theorem FlagsRise.withBv (h : FlagsRise s u) : FlagsRise s { u with bv := true } := ⟨h.1, h.2.1, fun _ => rfl, h.2.2.2⟩

theorem FlagsRise.withFin (h : FlagsRise s u) : FlagsRise s { u with fin := true } := ⟨h.1, h.2.1, h.2.2.1, fun _ => rfl⟩

theorem FlagsRise.serGoOn (h : FlagsRise s u) (todo : List SerWork) : FlagsRise s (serGoOn todo u) := by
  cases todo <;> exact h

theorem FlagsRise.desReturn (h : FlagsRise s u) (r : NodeIdx) (stack : List DesFrame) :
    FlagsRise s (desReturn r stack u) := by
  induction stack generalizing r u with
  | nil => exact h.withTv
  | cons f stack ih =>
    cases f with
    | lone => exact h.withTv
    | left i => exact h
    | right i => exact ih (u := u.modifyNode i _) h i

theorem FlagsRise.putBits (h : FlagsRise s u) (bits : List Bool) : FlagsRise s (putBits bits u) := by
  rw [putBits_frame]
  exact h

theorem FlagsRise.sat_decBits (h : FlagsRise s u) (n : Nat) : Sat True (FlagsRise s) (decBits n u) :=
  sat_of_forall fun t e => by
    obtain ⟨_, _, _, rfl | ⟨_, rfl⟩ | rfl⟩ := decBits_cases n u t e <;> exact h

theorem FlagsRise.sat_decNext (h : FlagsRise s u) : Sat True (FlagsRise s) (decNext u) := by
  unfold decNext decSymbol
  split
  · split
    · exact h
    · exact sat_decBits (u := { u with cur := u.root }) h _
  · exact h.withFin

theorem FlagsRise.sat_getByte (h : FlagsRise s u) {k : Byte → State → Result}
    (byte : ∀ b rest, Sat True (FlagsRise s) (k b (u.popped (.byte b) rest))) : Sat True (FlagsRise s) (getByte u k) :=
  sat_inPop h byte (fun _ => h) fun _ => h

theorem FlagsRise.sat_serMicro (h : FlagsRise s u) (todo : List SerWork) : Sat True (FlagsRise s) (serMicro todo u) := by
  have push (b : Byte) (todo : List SerWork) :
      Sat True (FlagsRise s) (outPush b u fun s => .next (Machine.serGoOn todo s)) :=
    sat_outPush h (serGoOn (u := u.pushed b) h todo) h
  match todo with
  | [] => exact h
  | .sym b :: rest => exact push b rest
  | .node i :: rest =>
    rw [serMicro]
    split
    · trivial
    · exact push _ _
    · exact push _ _

theorem FlagsRise.sat_micro (h : FlagsRise s u) : Sat True (FlagsRise s) (micro u) := by
  simp only [micro]
  cases u.phase with
  | idle => exact h
  | profPop =>
    refine sat_inPop h (fun b rest => ?_) (fun _ => h.withFv) fun _ => h
    dsimp only
    split <;> exact h
  | serPush todo => exact h.sat_serMicro todo
  | desRoot =>
    refine h.sat_getByte fun b rest => ?_
    split <;> exact h
  | desTag stack =>
    refine h.sat_getByte fun b rest => ?_
    split_ifs <;> exact h
  | desSym stack =>
    exact h.sat_getByte fun b rest =>
      desReturn (u := { (u.popped (.byte b) rest).allocated (.leaf b 0) with nsym := u.nsym + 1 }) h _ stack
  | encPop =>
    refine sat_inPop h (fun b rest => ?_) (fun rest => ?_) fun _ => h <;> dsimp only <;> split
    · exact h
    · exact putBits (u := u.popped (.byte b) rest) h _
    · exact withFin (u := (u.popped .eos rest).emptyAcc) h
    · exact h
  | encPush v rest => exact sat_outPush h (putBits (u := (u.pushed (u.shiftedIn v)).emptyAcc) h rest) h
  | encFlush => exact sat_outPush h (withFin (u := (u.pushed (u.acc <<< (8 - u.nacc.toNat))).emptyAcc) h) h
  | decPop =>
    exact sat_inPop h (fun b rest => sat_decBits (u := { u.popped (.byte b) rest with dbyte := b, dbits := 8 }) h 8)
      (fun _ => h) fun _ => h
  | decPush sym => exact sat_outPush h (sat_decNext (u := { u.pushed sym with decoded := u.decoded + 1 }) h) h

theorem FlagsRise.sat_goOn (h : FlagsRise s u) : Sat True (FlagsRise s) (goOn u) :=
  Machine.sat_goOn (fun _ => sat_micro) h

theorem FlagsRise.built (h : FlagsRise s u) : FlagsRise s u.built := by
  rw [built_frame]
  exact h.withTv

theorem FlagsRise.desStart (h : FlagsRise s u) (shape : BitVec 2) : FlagsRise s (u.desStart shape) := by
  unfold State.desStart
  dsimp only
  split_ifs
  · exact h.withTv
  · exact h
  · exact h

/-- Every command but a CLR taken while the core is idle. -/
theorem FlagsRise.sat_exec (h : FlagsRise s u) {i : Instr} (hi : i = .clr → u.busy = true) :
    Sat True (FlagsRise s) (exec i u) := by
  have read {i : Instr} (hi : isRead i = true) : Sat True (FlagsRise s) (exec i u) := by
    obtain ⟨resp, v, e⟩ := exec_read hi u
    exact e ▸ h
  have issue {i : Instr} {rule : State → Result} (accepted : Sat True (FlagsRise s) (rule (u.accept i))) :
      Sat True (FlagsRise s) (issued i u rule) :=
    sat_issued (fun _ => h) fun _ => accepted
  cases i with
  | clr =>
    have hc : checks .clr u = some rejBusy := by simp [checks, Instr.wf, hi rfl, mayOverlap]
    exact exec_of_fail hc ▸ h
  | prof =>
    rw [exec, execProf]
    exact issue (sat_goOn (u := { u.accept .prof with phase := .profPop }) h)
  | ldf sym count =>
    rw [exec, execLdf]
    exact issue h.withFv
  | build =>
    rw [exec, execBuild]
    exact issue (built (u := u.accept .build) h)
  | gen =>
    rw [exec, execGen]
    refine issue ?_
    split
    · exact h.withBv
    · split
      · exact h.withBv
      · trivial
  | tser =>
    rw [exec, execTser]
    exact issue (sat_goOn (serGoOn (u := u.accept .tser) h _))
  | tdes shape =>
    rw [exec, execTdes]
    exact issue (sat_goOn (desStart (u := u.accept (.tdes shape)) h shape))
  | enc =>
    rw [exec, execEnc]
    exact issue (sat_goOn (u := { (u.accept .enc).emptyAcc with phase := .encPop }) h)
  | dec expected =>
    rw [exec, execDec]
    exact issue (sat_andThen (sat_decNext (u := { u.accept (.dec expected) with
      expected := expected, decoded := 0, dbyte := 0, dbits := 0, cur := Config.nil }) h) fun _ => sat_goOn)
  | rdr reg => exact read rfl
  | rdf sym => exact read rfl
  | rdn sel idx => exact read rfl
  | rdc sel sym => exact read rfl

theorem FlagsRise.sat_step (hs : startsOperation s = false) : Sat True (FlagsRise s) (step s) := by
  refine Machine.sat_step (fun moves => sat_micro (refl s)) (fun cw wdata rest i hm hd => ?_) (fun _ => refl s)
    (fun _ _ _ _ => refl s) fun rest hm => (not_reset_of_startsOperation hs hm).elim
  exact sat_exec (u := { s with moves := rest }) (refl s) fun hi => busy_of_issue_clr (s := s) hs hm (hi ▸ hd)

/-- Settles O53: no operation of the core but CLR and reset puts a validity flag at 0. -/
theorem validityFlagsOnlyRise : Obligations.ValidityFlagsOnlyRise :=
  fun _ _ e hs => (FlagsRise.sat_step hs).of_eq_next e

/-! ### The error latch -/

/-- The second state is idle with the first state's error. -/
structure ErrorKept (s t : State) : Prop where
  err : t.err = true
  code : t.errcode = s.errcode
  sub : t.errsub = s.errsub
  idle : t.phase = .idle

/-- With an error latched the sequence condition lets CLR and the reads pass only (R97, R276). -/
theorem isRead_of_seqOk_err {i : Instr} (he : s.err = true) (h : seqOk i s = true) (hi : i ≠ .clr) : isRead i = true := by
  cases i <;> simp_all [seqOk, isRead]

theorem ErrorKept.sat_exec (h : ErrorKept s u) {i : Instr} (hi : i ≠ .clr) : Sat True (ErrorKept s) (exec i u) := by
  rcases hc : checks i u with _ | resp
  · have hread := isRead_of_seqOk_err h.err (checks_eq_none.1 hc).2.2.1 hi
    obtain ⟨resp, v, e⟩ := exec_read hread u
    exact e ▸ { h with }
  · exact exec_of_fail hc ▸ { h with }

theorem ErrorKept.sat_step (he : s.err = true) (hp : s.phase = .idle) (hs : startsOperation s = false) :
    Sat True (ErrorKept s) (step s) := by
  have kept : ErrorKept s s := ⟨he, rfl, rfl, hp⟩
  refine Machine.sat_step (fun moves => ?_) (fun cw wdata rest i hm hd => ?_) (fun _ => { kept with })
    (fun _ _ _ _ => { kept with }) fun rest hm => (not_reset_of_startsOperation hs hm).elim
  · exact micro_idle (s := { s with moves := moves }) hp ▸ { kept with }
  · refine sat_exec (u := { s with moves := rest }) { kept with } fun hi => ?_
    have hb := busy_of_issue_clr hs hm (hi ▸ hd)
    exact busy_iff.1 hb hp

/-- Settles O52: an idle core takes no micro-step, and with an error latched it accepts the reads only. -/
theorem errorStaysLatched : Obligations.ErrorStaysLatched := fun _ _ e hp he hs =>
  have kept := (ErrorKept.sat_step he hp hs).of_eq_next e
  ⟨kept.err, kept.code, kept.sub, kept.idle⟩

/-! ### Busy, reset, STATUS -/

/-- Settles O9: the busy check comes before the sequence and the range check, and the rejection is all that happens. -/
theorem busyRejectsAllButFourReads : Obligations.BusyRejectsAllButFourReads := by
  intro s i hw hp hi
  have hb : s.busy = true := busy_iff.2 hp
  have ho : mayOverlap i = false := by
    cases i with
    | rdr reg => simpa [mayOverlap, and_assoc] using hi
    | _ => rfl
  have hc : checks i s = some rejBusy := by simp [checks, hw, hb, ho]
  exact exec_of_fail hc

/-- Settles O14: each value is the one `State.reset` writes out. -/
theorem resetValues : Obligations.ResetValues :=
  ⟨by decide, rfl, rfl, rfl, rfl, rfl, rfl, rfl, rfl, rfl, rfl, rfl, rfl, rfl, rfl, rfl, rfl, rfl, rfl, rfl⟩

/-- Settles O15: the bits of each field are found among those of the parts that `State.status` puts side by side. -/
theorem statusLayout : Obligations.StatusLayout := by
  intro s
  have flags : s.status.getLsbD 0 = decide (s.phase ≠ .idle) ∧ s.status.getLsbD 1 = s.fv ∧ s.status.getLsbD 2 = s.tv ∧
      s.status.getLsbD 3 = s.bv ∧ s.status.getLsbD 4 = s.fin ∧ s.status.getLsbD 5 = s.err := by
    simp only [State.status, BitVec.getLsbD_append]
    simp [State.busy, bne, Bool.beq_eq_decide_eq]
  have fields : s.status.extractLsb' 6 2 = s.shape ∧ s.status.extractLsb' 8 4 = s.errcode ∧
      s.status.extractLsb' 12 4 = s.errsub ∧ s.status.extractLsb' 16 8 = s.curop ∧ s.status.extractLsb' 24 40 = 0#40 := by
    refine ⟨?_, ?_, ?_, ?_, ?_⟩ <;> rw [State.status] <;> repeat rw [BitVec.extractLsb'_append_eq_of_le (by decide)]
    · exact BitVec.extractLsb'_append_eq_right
    · exact BitVec.extractLsb'_append_eq_right
    · exact BitVec.extractLsb'_append_eq_right
    · exact BitVec.extractLsb'_append_eq_right
    · exact BitVec.extractLsb'_eq_self
  obtain ⟨busy, fv, tv, bv, fin, err⟩ := flags
  exact ⟨busy, fv, tv, bv, fin, err, fields⟩

end Sys2Proof.Machine

/-! SUPPORT. Trees held by the NODE table: what holding a tree depends on, the indices of a tree, its size and its paths. -/

namespace Sys2Proof.Safety

open Sys2Proof.Machine

/-- The indices of the first `n` entries. -/
def indexRange (n : Nat) : List NodeIdx := (List.range n).map (BitVec.ofNat 9)

variable {nodes nodes' : List Node} {i j : NodeIdx}

@[simp] theorem length_indexRange (n : Nat) : (indexRange n).length = n := by simp [indexRange]

theorem toNat_ofNat_index {n : Nat} (h : n < 512) : (BitVec.ofNat 9 n).toNat = n := by
  rw [BitVec.toNat_ofNat, Nat.mod_eq_of_lt (by simpa using h)]

theorem mem_indexRange {n : Nat} (hn : n ≤ 512) : i ∈ indexRange n ↔ i.toNat < n := by
  constructor
  · intro h
    obtain ⟨k, hk, rfl⟩ := List.mem_map.1 h
    have hk := List.mem_range.1 hk
    rwa [toNat_ofNat_index (by omega)]
  · exact fun h => List.mem_map.2 ⟨i.toNat, List.mem_range.2 h, by simp⟩

theorem nodup_indexRange {n : Nat} (hn : n ≤ 512) : (indexRange n).Nodup := by
  refine List.Nodup.map_on (fun x hx y hy h => ?_) List.nodup_range
  have hx := List.mem_range.1 hx
  have hy := List.mem_range.1 hy
  simpa [toNat_ofNat_index (show x < 512 by omega), toNat_ofNat_index (show y < 512 by omega)] using
    congrArg BitVec.toNat h

theorem indexRange_succ (n : Nat) : indexRange (n + 1) = indexRange n ++ [BitVec.ofNat 9 n] := by
  simp [indexRange, List.range_succ]

/-- An index below 511 is not NIL (R5). -/
theorem ne_nil_of_lt (h : i.toNat < 511) : i ≠ Config.nil := by
  rintro rfl
  exact absurd h (by decide)

theorem nodeAt_lt {n : Node} (h : nodeAt nodes i = some n) : i.toNat < nodes.length :=
  (List.getElem?_eq_some_iff.1 h).1

theorem nodeAt_of_lt (h : i.toNat < nodes.length) : ∃ n, nodeAt nodes i = some n :=
  ⟨_, List.getElem?_eq_getElem h⟩

theorem nodeAt_append (h : i.toNat < nodes.length) (more : List Node) : nodeAt (nodes ++ more) i = nodeAt nodes i :=
  List.getElem?_append_left h

theorem nodeAt_concat (h : nodes.length < 512) (n : Node) :
    nodeAt (nodes ++ [n]) (BitVec.ofNat 9 nodes.length) = some n := by
  rw [nodeAt, toNat_ofNat_index h, List.getElem?_concat_length]

/-! ### Holding a tree -/

@[simp] theorem heldAt_leaf {sym : Byte} :
    (Tree.leaf sym).heldAt nodes i = true ↔ ∃ w, nodeAt nodes i = some (.leaf sym w) := by
  rw [Tree.heldAt]
  rcases nodeAt nodes i with _ | (⟨sym', w⟩ | ⟨w, a, b⟩) <;> simp

@[simp] theorem heldAt_node {l r : Tree} :
    (Tree.node l r).heldAt nodes i = true ↔ ∃ w a b, nodeAt nodes i = some (.internal w a b) ∧
      a ≠ Config.nil ∧ b ≠ Config.nil ∧ l.heldAt nodes a = true ∧ r.heldAt nodes b = true := by
  rw [Tree.heldAt]
  rcases nodeAt nodes i with _ | (⟨sym', w⟩ | ⟨w, a, b⟩) <;> simp [and_assoc]

theorem indices_node {l r : Tree} {w : Data} {a b : NodeIdx} (h : nodeAt nodes i = some (.internal w a b)) :
    (Tree.node l r).indices nodes i = i :: (l.indices nodes a ++ r.indices nodes b) := by
  simp [Tree.indices, h]

/-- A tree's root is the first of its indices. -/
theorem root_mem_indices (t : Tree) : i ∈ t.indices nodes i := by
  cases t with
  | leaf sym => simp [Tree.indices]
  | node l r =>
    rw [Tree.indices]
    split <;> simp

theorem lt_of_heldAt {t : Tree} (h : t.heldAt nodes i = true) : i.toNat < nodes.length := by
  cases t with
  | leaf sym =>
    obtain ⟨_, h⟩ := heldAt_leaf.1 h
    exact nodeAt_lt h
  | node l r =>
    obtain ⟨_, _, _, h, _⟩ := heldAt_node.1 h
    exact nodeAt_lt h

theorem lt_of_mem_indices {t : Tree} (h : t.heldAt nodes i = true) (hj : j ∈ t.indices nodes i) :
    j.toNat < nodes.length := by
  induction t generalizing i with
  | leaf sym =>
    obtain rfl := List.mem_singleton.1 hj
    exact lt_of_heldAt h
  | node l r ihl ihr =>
    obtain ⟨w, a, b, hi, -, -, hl, hr⟩ := heldAt_node.1 h
    rw [indices_node hi, List.mem_cons, List.mem_append] at hj
    rcases hj with rfl | hj | hj
    · exact nodeAt_lt hi
    · exact ihl hl hj
    · exact ihr hr hj

/-- Whether a tree is held, and where, depends on its own entries only. -/
theorem indices_congr {t : Tree} (h : ∀ j ∈ t.indices nodes i, nodeAt nodes' j = nodeAt nodes j) :
    t.heldAt nodes' i = t.heldAt nodes i ∧ t.indices nodes' i = t.indices nodes i := by
  induction t generalizing i with
  | leaf sym => simp [Tree.heldAt, Tree.indices, h i (by simp [Tree.indices])]
  | node l r ihl ihr =>
    have hi := h i (root_mem_indices _)
    rcases hn : nodeAt nodes i with _ | (⟨sym', w⟩ | ⟨w, a, b⟩)
    · simp [Tree.heldAt, Tree.indices, hi, hn]
    · simp [Tree.heldAt, Tree.indices, hi, hn]
    · rw [indices_node hn] at h
      obtain ⟨hl, hl'⟩ := ihl (i := a) fun j hj => h j (by simp [hj])
      obtain ⟨hr, hr'⟩ := ihr (i := b) fun j hj => h j (by simp [hj])
      simp [Tree.heldAt, Tree.indices, hi, hn, hl, hl', hr, hr']

/-- A longer table holds the same trees. -/
theorem agree_append {t : Tree} (held : t.heldAt nodes i = true) (more : List Node) :
    ∀ j ∈ t.indices nodes i, nodeAt (nodes ++ more) j = nodeAt nodes j :=
  fun _ hj => nodeAt_append (lt_of_mem_indices held hj) more

/-- The children of a tree's Internal nodes are defined entries. -/
theorem children_lt {t : Tree} (h : t.heldAt nodes i = true) (hj : j ∈ t.indices nodes i) {w : Data} {a b : NodeIdx}
    (hn : nodeAt nodes j = some (.internal w a b)) : a.toNat < nodes.length ∧ b.toNat < nodes.length := by
  induction t generalizing i with
  | leaf sym =>
    obtain rfl := List.mem_singleton.1 hj
    obtain ⟨w', h⟩ := heldAt_leaf.1 h
    cases h.symm.trans hn
  | node l r ihl ihr =>
    obtain ⟨w', a', b', hi, -, -, hl, hr⟩ := heldAt_node.1 h
    rw [indices_node hi, List.mem_cons, List.mem_append] at hj
    rcases hj with rfl | hj | hj
    · cases hi.symm.trans hn
      exact ⟨lt_of_heldAt hl, lt_of_heldAt hr⟩
    · exact ihl hl hj
    · exact ihr hr hj

/-! ### Size, leaves, depth, paths -/

theorem length_indices {t : Tree} (h : t.heldAt nodes i = true) : (t.indices nodes i).length = t.size := by
  induction t generalizing i with
  | leaf sym => rfl
  | node l r ihl ihr =>
    obtain ⟨w, a, b, hi, -, -, hl, hr⟩ := heldAt_node.1 h
    rw [indices_node hi, List.length_cons, List.length_append, ihl hl, ihr hr, Tree.size]
    omega

/-- A full tree of n leaves has 2n - 1 nodes (R31). -/
theorem size_add_one (t : Tree) : t.size + 1 = 2 * t.leafCount := by
  induction t with
  | leaf sym => rfl
  | node l r ihl ihr => rw [Tree.size, Tree.leafCount]; omega

theorem depth_lt_leafCount (t : Tree) : t.depth < t.leafCount := by
  induction t with
  | leaf sym => exact Nat.one_pos
  | node l r ihl ihr => rw [Tree.depth, Tree.leafCount]; omega

theorem length_paths (t : Tree) : t.paths.length = t.leafCount := by
  induction t with
  | leaf sym => rfl
  | node l r ihl ihr => simp [Tree.paths, Tree.leafCount, ihl, ihr]

theorem path_length_le {t : Tree} {x : Byte × List Bool} (h : x ∈ t.paths) : x.2.length ≤ t.depth := by
  induction t generalizing x with
  | leaf sym => cases List.mem_singleton.1 h; exact le_rfl
  | node l r ihl ihr =>
    rw [Tree.depth]
    rcases List.mem_append.1 h with h | h <;> obtain ⟨y, hy, rfl⟩ := List.mem_map.1 h
    · have := ihl hy
      rw [List.length_cons]
      omega
    · have := ihr hy
      rw [List.length_cons]
      omega

/-- Neither code is an initial part of the other (R33 d). -/
def Apart (x y : Byte × List Bool) : Prop := ¬x.2 <+: y.2 ∧ ¬y.2 <+: x.2

theorem symm_apart : Std.Symm Apart := ⟨fun _ _ h => ⟨h.2, h.1⟩⟩

theorem apart_cons (b : Bool) {x y : Byte × List Bool} (h : Apart x y) : Apart (x.1, b :: x.2) (y.1, b :: y.2) := by
  simpa [Apart, List.cons_prefix_cons] using h

theorem apart_of_first_bit (x y : Byte × List Bool) : Apart (x.1, false :: x.2) (y.1, true :: y.2) := by
  simp [Apart, List.cons_prefix_cons]

theorem paths_pairwise (t : Tree) : t.paths.Pairwise Apart := by
  induction t with
  | leaf sym => exact List.pairwise_singleton _ _
  | node l r ihl ihr =>
    have extend (b : Bool) {ps : List (Byte × List Bool)} (h : ps.Pairwise Apart) :
        (ps.map fun x => (x.1, b :: x.2)).Pairwise Apart :=
      List.pairwise_map.2 (h.imp (apart_cons b))
    refine List.pairwise_append.2 ⟨extend false ihl, extend true ihr, fun x hx y hy => ?_⟩
    obtain ⟨x, -, rfl⟩ := List.mem_map.1 hx
    obtain ⟨y, -, rfl⟩ := List.mem_map.1 hy
    exact apart_of_first_bit x y

/-- Kraft equality of a full tree, scaled by 2^d (R33 c). -/
theorem kraft_paths (t : Tree) (d : Nat) (h : t.depth ≤ d) :
    (t.paths.map fun x => 2 ^ (d - x.2.length)).sum = 2 ^ d := by
  induction t generalizing d with
  | leaf sym => simp [Tree.paths]
  | node l r ihl ihr =>
    rw [Tree.depth] at h
    obtain ⟨d, rfl⟩ : ∃ e, d = e + 1 := ⟨d - 1, by omega⟩
    have child (t : Tree) (b : Bool) :
        ((t.paths.map fun x => (x.1, b :: x.2)).map fun x => 2 ^ (d + 1 - x.2.length)) =
          t.paths.map fun x => 2 ^ (d - x.2.length) := by
      simp [Function.comp_def]
    rw [Tree.paths, List.map_append, List.sum_append, child, child, ihl d (by omega), ihr d (by omega), pow_succ]
    omega

/-! ### Trees with their SHAPE -/

theorem heldAt_lone {t : Tree} : (Shaped.lone t).heldAt nodes i = true ↔
    i ≠ Config.nil ∧ ∃ w a, nodeAt nodes i = some (.internal w a Config.nil) ∧ a ≠ Config.nil ∧
      t.heldAt nodes a = true := by
  rw [Shaped.heldAt]
  rcases nodeAt nodes i with _ | (⟨sym', w⟩ | ⟨w, a, b⟩)
  · simp
  · simp
  · simp only [Bool.and_eq_true, bne_iff_ne, beq_iff_eq, Option.some.injEq, Node.internal.injEq]
    constructor
    · rintro ⟨hi, ⟨ha, hb⟩, ht⟩
      exact ⟨hi, w, a, ⟨rfl, rfl, hb⟩, ha, ht⟩
    · rintro ⟨hi, _, _, ⟨rfl, rfl, hb⟩, ha, ht⟩
      exact ⟨hi, ⟨ha, hb⟩, ht⟩

theorem heldAt_full {t : Tree} : (Shaped.full t).heldAt nodes i = true ↔ i ≠ Config.nil ∧ t.heldAt nodes i = true := by
  simp [Shaped.heldAt]

theorem indices_lone {t : Tree} {w : Data} {a b : NodeIdx} (h : nodeAt nodes i = some (.internal w a b)) :
    (Shaped.lone t).indices nodes i = i :: t.indices nodes a := by
  simp [Shaped.indices, h]

/-- Every held tree has its root among its entries, or is empty. -/
theorem shaped_root_lt {h : Shaped} (held : h.heldAt nodes i = true) : i = Config.nil ∨ i.toNat < nodes.length := by
  cases h with
  | empty => exact .inl (by simpa [Shaped.heldAt] using held)
  | lone t =>
    obtain ⟨_, _, _, hi, _⟩ := heldAt_lone.1 held
    exact .inr (nodeAt_lt hi)
  | full t => exact .inr (lt_of_heldAt (heldAt_full.1 held).2)

theorem shaped_children {h : Shaped} (held : h.heldAt nodes i = true) (hj : j ∈ h.indices nodes i) {w : Data}
    {a b : NodeIdx} (hn : nodeAt nodes j = some (.internal w a b)) :
    a.toNat < nodes.length ∧ (b = Config.nil ∨ b.toNat < nodes.length) := by
  cases h with
  | empty => cases hj
  | lone t =>
    obtain ⟨-, w', a', hi, -, ht⟩ := heldAt_lone.1 held
    rw [indices_lone hi, List.mem_cons] at hj
    rcases hj with rfl | hj
    · cases hi.symm.trans hn
      exact ⟨lt_of_heldAt ht, .inl rfl⟩
    · have ⟨ha, hb⟩ := children_lt ht hj hn
      exact ⟨ha, .inr hb⟩
  | full t =>
    have ⟨ha, hb⟩ := children_lt (heldAt_full.1 held).2 hj hn
    exact ⟨ha, .inr hb⟩

theorem length_shaped_indices {h : Shaped} (held : h.heldAt nodes i = true) : (h.indices nodes i).length = h.size := by
  cases h with
  | empty => rfl
  | lone t =>
    obtain ⟨-, w, a, hi, -, ht⟩ := heldAt_lone.1 held
    rw [indices_lone hi, List.length_cons, length_indices ht, Shaped.size, Nat.add_comm]
  | full t => exact length_indices (heldAt_full.1 held).2

/-- A tree that fits the NODE table is not deeper than PATH is long (R163). -/
theorem shaped_depth_le {h : Shaped} (hs : h.size ≤ 511) : h.depth ≤ 255 := by
  cases h with
  | empty => exact Nat.zero_le _
  | lone t =>
    have := size_add_one t
    have := depth_lt_leafCount t
    rw [Shaped.size] at hs
    rw [Shaped.depth]
    omega
  | full t =>
    have := size_add_one t
    have := depth_lt_leafCount t
    rw [Shaped.size] at hs
    rw [Shaped.depth]
    omega

/-! ### The walk of GEN -/

/-- The walk of a held tree gives every leaf's symbol its path, left before right (R161). -/
theorem walk_heldAt (t : Tree) (n : Nat) (p : List Bool) (code : Vector Code 256) (held : t.heldAt nodes i = true)
    (hn : t.depth < n) :
    walk nodes n i p code = .ok (t.paths.foldl (fun c x => setEntry c x.1 (codeOfPath (p ++ x.2))) code) := by
  induction t generalizing n i p code with
  | leaf sym =>
    obtain ⟨n, rfl⟩ : ∃ m, n = m + 1 := ⟨n - 1, by omega⟩
    obtain ⟨w, hi⟩ := heldAt_leaf.1 held
    simp [walk, hi, Tree.paths]
  | node l r ihl ihr =>
    rw [Tree.depth] at hn
    obtain ⟨n, rfl⟩ : ∃ m, n = m + 1 := ⟨n - 1, by omega⟩
    obtain ⟨w, a, b, hi, ha, hb, hl, hr⟩ := heldAt_node.1 held
    simp [walk, hi, ha, hb, ihl n _ _ hl (by omega), ihr n _ _ hr (by omega), Tree.paths, List.foldl_map]

/-- GEN walks a held tree to the code table of its codes (R160 to R162). -/
theorem walk_shaped {h : Shaped} (held : h.heldAt nodes i = true) (hi : i ≠ Config.nil) (hd : h.depth ≤ 255) :
    walk nodes 256 i [] emptyCode = .ok (codeTable h.codes) := by
  cases h with
  | empty => exact absurd (by simpa [Shaped.heldAt] using held) hi
  | lone t =>
    obtain ⟨-, w, a, hr, ha, ht⟩ := heldAt_lone.1 held
    rw [Shaped.depth] at hd
    rw [walk]
    simp [hr, ha, walk_heldAt t 255 _ _ ht (by omega), codeTable, Shaped.codes, List.foldl_map, codeOfPath, emptyCode]
  | full t =>
    rw [walk_heldAt t 256 _ _ (heldAt_full.1 held).2 (Nat.lt_succ_of_le hd)]
    simp [codeTable, Shaped.codes, List.foldl_map, codeOfPath, emptyCode]

end Sys2Proof.Safety

/-! SUPPORT. What BUILD and GEN make: the forest grows to one full tree, and its code book (10_state.md R31, R33). -/

namespace Sys2Proof.Safety

open Sys2Proof.Machine

/-- The symbols with a nonzero count, in ascending order (R141). -/
def counted (freq : Vector Data 256) : List Byte := symbols.filter fun b => entry freq b != 0

theorem mem_counted {freq : Vector Data 256} {b : Byte} : b ∈ counted freq ↔ entry freq b ≠ 0 := by simp [counted]

theorem nodup_counted (freq : Vector Data 256) : (counted freq).Nodup := nodup_symbols.filter _

theorem length_counted (freq : Vector Data 256) : (counted freq).length = distinct freq := rfl

/-- A sum over all symbols is a sum over the counted ones, where the others add nothing. -/
theorem sum_counted (freq : Vector Data 256) (g : Byte → Nat) (h : ∀ b, entry freq b = 0 → g b = 0) :
    ((counted freq).map g).sum = (symbols.map g).sum := by
  unfold counted
  induction symbols with
  | nil => rfl
  | cons b bs ih =>
    by_cases hb : entry freq b = 0
    · rw [List.filter_cons_of_neg (by simpa using hb), ih, List.map_cons, List.sum_cons, h b hb, Nat.zero_add]
    · rw [List.filter_cons_of_pos (by simpa using hb), List.map_cons, List.map_cons, List.sum_cons, List.sum_cons, ih]

/-! ### The forest of BUILD -/

/-- Every element of PQ is the root of a tree, `tree` says of which. The trees have every entry once, and the leaves
`syms`. -/
structure Grows (syms : List Byte) (tree : NodeIdx → Tree) (f : Forest) : Prop where
  held : ∀ i ∈ f.pq, (tree i).heldAt f.nodes i = true
  once : (f.pq.flatMap fun i => (tree i).indices f.nodes i).Perm (indexRange f.nodes.length)
  leaves : (f.pq.flatMap fun i => (tree i).paths.map (·.1)).Perm syms
  fits : f.nodes.length + f.pq.length ≤ 512

/-- What the elements of PQ weigh together, on unbounded naturals. -/
def weightSum (f : Forest) : Nat := (f.pq.map fun i => (weightAt f.nodes i).toNat).sum

theorem map_indexRange {α β : Type} (l : List α) (hl : l.length ≤ 512) (g : NodeIdx → β) (g' : α → β)
    (h : ∀ i x, l[i.toNat]? = some x → g i = g' x) : (indexRange l.length).map g = l.map g' := by
  apply List.ext_getElem
  · simp
  · intro k hk hk'
    have hk : k < l.length := by simpa using hk
    have := h (BitVec.ofNat 9 k) l[k] (by rw [toNat_ofNat_index (by omega)]; exact List.getElem?_eq_getElem hk)
    simpa [indexRange] using this

variable {freq : Vector Data 256} {syms : List Byte} {tree : NodeIdx → Tree} {f : Forest}

theorem makeLeaves_eq (freq : Vector Data 256) : makeLeaves freq = (counted freq).map fun b => .leaf b (entry freq b) := rfl

theorem grows_ofLeaves (freq : Vector Data 256) :
    Grows (counted freq) (fun i => .leaf ((counted freq).getD i.toNat 0)) (Forest.ofLeaves (makeLeaves freq)) := by
  have hn := distinct_le freq
  have hlen := makeLeaves_length freq
  have hpq := ofLeaves_pq_perm (makeLeaves freq)
  refine ⟨fun i hi => ?_, ?_, ?_, ?_⟩
  · have hi : i.toNat < (makeLeaves freq).length := (mem_indexRange (by omega)).1 (hpq.mem_iff.1 hi)
    have hi' : i.toNat < (counted freq).length := by rwa [length_counted, ← hlen]
    exact heldAt_leaf.2 ⟨entry freq (counted freq)[i.toNat], by simp [Forest.ofLeaves, nodeAt, makeLeaves_eq, hi']⟩
  · show ((Forest.ofLeaves (makeLeaves freq)).pq.flatMap fun i => [i]).Perm _
    rw [List.flatMap_singleton']
    exact hpq
  · have leaves : (indexRange (counted freq).length).map (fun i => (counted freq).getD i.toNat 0) = (counted freq).map id :=
      map_indexRange _ (by rw [length_counted]; omega) _ _ fun i x hx => by simp [hx]
    rw [List.map_id, length_counted, ← hlen] at leaves
    show ((Forest.ofLeaves (makeLeaves freq)).pq.flatMap fun i => [(counted freq).getD i.toNat 0]).Perm _
    rw [← List.map_eq_flatMap]
    exact (hpq.map _).trans (.of_eq leaves)
  · rw [ofLeaves_pq_length]
    show (makeLeaves freq).length + _ ≤ 512
    omega

theorem weightSum_ofLeaves (freq : Vector Data 256) : weightSum (Forest.ofLeaves (makeLeaves freq)) = freqSum freq := by
  have hn := distinct_le freq
  have weights := map_indexRange (makeLeaves freq) (by rw [makeLeaves_length]; omega)
    (fun i => (weightAt (makeLeaves freq) i).toNat) (fun n => n.w.toNat) fun i n h => by simp [weightAt, nodeAt, h]
  calc weightSum (Forest.ofLeaves (makeLeaves freq))
      = ((makeLeaves freq).map fun n => n.w.toNat).sum := by
        rw [← weights]; exact ((ofLeaves_pq_perm _).map _).sum_eq
    _ = ((counted freq).map fun b => (entry freq b).toNat).sum := by rw [makeLeaves_eq, List.map_map]; rfl
    _ = freqSum freq := sum_counted freq _ fun b hb => by simp [hb]

theorem Grows.lt (h : Grows syms tree f) {i : NodeIdx} (hi : i ∈ f.pq) : i.toNat < f.nodes.length :=
  lt_of_heldAt (h.held i hi)

/-- The trees after a merge: the new node over the first two (R143). -/
def merged (tree : NodeIdx → Tree) (a b k : NodeIdx) : NodeIdx → Tree :=
  Function.update tree k (.node (tree a) (tree b))

section Merge
variable {a b i : NodeIdx} {rest : List NodeIdx}

theorem merge_nodes (hpq : f.pq = a :: b :: rest) :
    f.merge.nodes = f.nodes ++ [.internal (weightAt f.nodes a + weightAt f.nodes b) a b] := by rw [merge_cons hpq]

theorem merge_pq_perm (hpq : f.pq = a :: b :: rest) : f.merge.pq.Perm (BitVec.ofNat 9 f.nodes.length :: rest) := by
  rw [merge_cons hpq]
  exact insertPq_perm _ _ _

/-- While two nodes are left in PQ there is room for another (R147). -/
theorem Grows.room (h : Grows syms tree f) (hpq : f.pq = a :: b :: rest) : f.nodes.length < 511 := by
  have := h.fits
  rw [hpq, List.length_cons, List.length_cons] at this
  omega

theorem nodeAt_merge_new (h : Grows syms tree f) (hpq : f.pq = a :: b :: rest) :
    nodeAt f.merge.nodes (BitVec.ofNat 9 f.nodes.length) =
      some (.internal (weightAt f.nodes a + weightAt f.nodes b) a b) := by
  have := h.room hpq
  rw [merge_nodes hpq, nodeAt_concat (by omega)]

/-- A merge leaves the trees it does not take where they are, and the two it takes too (R143). -/
theorem Grows.kept (h : Grows syms tree f) (hpq : f.pq = a :: b :: rest) (hi : i ∈ f.pq) :
    (tree i).heldAt f.merge.nodes i = true ∧ (tree i).indices f.merge.nodes i = (tree i).indices f.nodes i := by
  rw [merge_nodes hpq]
  have ⟨held, same⟩ := indices_congr (agree_append (h.held i hi) [.internal (weightAt f.nodes a + weightAt f.nodes b) a b])
  exact ⟨held.trans (h.held i hi), same⟩

theorem merged_new : merged tree a b i i = .node (tree a) (tree b) := Function.update_self ..

theorem Grows.merged_old (h : Grows syms tree f) (hpq : f.pq = a :: b :: rest) (hi : i ∈ f.pq) :
    merged tree a b (BitVec.ofNat 9 f.nodes.length) i = tree i := by
  refine Function.update_of_ne (fun e => ?_) ..
  have lt := h.lt hi
  have := h.room hpq
  rw [e, toNat_ofNat_index (by omega)] at lt
  exact lt_irrefl _ lt

/-- A merge takes two trees from PQ and puts one back, over all their entries and the new one (R143). -/
theorem Grows.merge (h : Grows syms tree f) (hpq : f.pq = a :: b :: rest) :
    Grows syms (merged tree a b (BitVec.ofNat 9 f.nodes.length)) f.merge := by
  obtain ⟨hn, hq⟩ := length_merge (f := f) (by simp [hpq])
  have hperm := merge_pq_perm hpq
  have room := h.room hpq
  have fits := h.fits
  have ha : a ∈ f.pq := by simp [hpq]
  have hb : b ∈ f.pq := by simp [hpq]
  have hrest : ∀ i ∈ rest, i ∈ f.pq := fun i hi => by simp [hpq, hi]
  have hnil {i : NodeIdx} (hi : i ∈ f.pq) : i ≠ Config.nil := ne_nil_of_lt ((h.lt hi).trans room)
  have once := h.once
  have leaves := h.leaves
  rw [hpq] at once leaves
  refine ⟨fun i hi => ?_, ?_, ?_, by omega⟩
  · rcases List.mem_cons.1 (hperm.mem_iff.1 hi) with rfl | hi
    · rw [merged_new]
      exact heldAt_node.2 ⟨_, a, b, nodeAt_merge_new h hpq, hnil ha, hnil hb, (h.kept hpq ha).1, (h.kept hpq hb).1⟩
    · rw [h.merged_old hpq (hrest i hi)]
      exact (h.kept hpq (hrest i hi)).1
  · refine (hperm.flatMap_right _).trans ?_
    have tail : (rest.flatMap fun i => (merged tree a b (BitVec.ofNat 9 f.nodes.length) i).indices f.merge.nodes i) =
        rest.flatMap fun i => (tree i).indices f.nodes i :=
      List.flatMap_congr fun i hi => by rw [h.merged_old hpq (hrest i hi), (h.kept hpq (hrest i hi)).2]
    rw [List.flatMap_cons, tail, merged_new, indices_node (nodeAt_merge_new h hpq), (h.kept hpq ha).2, (h.kept hpq hb).2,
      hn, indexRange_succ]
    refine .trans ?_ (List.perm_append_comm (l₁ := [_]))
    simpa using once.cons (BitVec.ofNat 9 f.nodes.length)
  · refine ((hperm.flatMap_right _).trans ?_).trans leaves
    have tail : (rest.flatMap fun i => (merged tree a b (BitVec.ofNat 9 f.nodes.length) i).paths.map (·.1)) =
        rest.flatMap fun i => (tree i).paths.map (·.1) :=
      List.flatMap_congr fun i hi => by rw [h.merged_old hpq (hrest i hi)]
    rw [List.flatMap_cons, tail, merged_new]
    simp [Tree.paths, Function.comp_def]

/-- A merge keeps the sum of the weights, where it does not wrap (R143). -/
theorem weightSum_merge (h : Grows syms tree f) (hpq : f.pq = a :: b :: rest) (hw : weightSum f < 2 ^ 64) :
    weightSum f.merge = weightSum f := by
  have top : weightAt f.merge.nodes (BitVec.ofNat 9 f.nodes.length) = weightAt f.nodes a + weightAt f.nodes b := by
    rw [weightAt, nodeAt_merge_new h hpq]
    rfl
  have tail : (rest.map fun i => (weightAt f.merge.nodes i).toNat) = rest.map fun i => (weightAt f.nodes i).toNat :=
    List.map_congr_left fun i hi => by rw [merge_nodes hpq, weightAt_append (h.lt (by simp [hpq, hi]))]
  unfold weightSum at hw ⊢
  rw [((merge_pq_perm hpq).map _).sum_eq, List.map_cons, List.sum_cons, top, tail]
  simp only [hpq, List.map_cons, List.sum_cons] at hw ⊢
  rw [BitVec.toNat_add]
  omega

end Merge

/-- The leaves grow to one tree, with every entry in it once, one leaf per counted symbol, and the weight of all of them
(R31, R140, R147). -/
theorem grown_tree (h : makeLeaves freq ≠ []) :
    ∃ (r : NodeIdx) (t : Tree), (Forest.grown (makeLeaves freq)).pq = [r] ∧
      t.heldAt (Forest.grown (makeLeaves freq)).nodes r = true ∧
      (t.indices (Forest.grown (makeLeaves freq)).nodes r).Perm
        (indexRange (Forest.grown (makeLeaves freq)).nodes.length) ∧
      (t.paths.map (·.1)).Perm (counted freq) ∧
      (freqSum freq < 2 ^ 64 → (weightAt (Forest.grown (makeLeaves freq)).nodes r).toNat = freqSum freq) := by
  obtain ⟨⟨tree, grows⟩, weights⟩ : (∃ tree, Grows (counted freq) tree (Forest.grown (makeLeaves freq))) ∧
      (freqSum freq < 2 ^ 64 → weightSum (Forest.grown (makeLeaves freq)) = freqSum freq) := by
    refine grown_keeps (P := fun f => (∃ tree, Grows (counted freq) tree f) ∧
      (freqSum freq < 2 ^ 64 → weightSum f = freqSum freq)) ?_ ⟨⟨_, grows_ofLeaves freq⟩, fun _ => weightSum_ofLeaves freq⟩
    rintro f ⟨⟨tree, grows⟩, weights⟩ hl
    match hpq : f.pq with
    | [] => simp [hpq] at hl
    | [_] => simp [hpq] at hl
    | a :: b :: rest =>
      exact ⟨⟨_, grows.merge hpq⟩, fun small => (weightSum_merge grows hpq (weights small ▸ small)).trans (weights small)⟩
  obtain ⟨r, hr⟩ := List.length_eq_one_iff.1 (grown_length h).1
  have once := grows.once
  have leaves := grows.leaves
  rw [hr, List.flatMap_singleton] at once leaves
  refine ⟨r, tree r, hr, grows.held r (by simp [hr]), once, leaves, fun small => ?_⟩
  simpa [weightSum, hr] using weights small

end Sys2Proof.Safety

/-! SUPPORT. The code book that GEN makes of a tree of BUILD, and the statements about it (10_state.md R33). -/

namespace Sys2Proof.Safety

open Sys2Proof.Machine

variable {s : State} {h : Shaped} {freq : Vector Data 256}

/-! ### The tree of BUILD -/

/-- The trees BUILD makes: none, one leaf under a synthetic root, or a full tree of two leaves or more (R144, R145, R140). -/
inductive OfBuild : Shaped → Prop
  | empty : OfBuild .empty
  | lone (b : Byte) : OfBuild (.lone (.leaf b))
  | full (l r : Tree) : OfBuild (.full (.node l r))

/-- Every leaf's symbol, left before right. -/
def symbolsOf (h : Shaped) : List Byte := h.codes.map (·.1)

theorem symbolsOf_full (t : Tree) : symbolsOf (.full t) = t.paths.map (·.1) := by
  simp [symbolsOf, Shaped.codes, Function.comp_def]

theorem length_symbolsOf (h : Shaped) : (symbolsOf h).length = h.leafCount := by
  cases h <;> simp [symbolsOf, Shaped.codes, Shaped.leafCount, length_paths]

/-- NODE and ROOT hold the tree, each entry in it once (R31 a, b, e). -/
structure Holds (nodes : List Node) (root : NodeIdx) (h : Shaped) : Prop where
  held : h.heldAt nodes root = true
  once : (h.indices nodes root).Perm (indexRange nodes.length)

theorem Holds.depth_le {nodes : List Node} {root : NodeIdx} (holds : Holds nodes root h) (hn : nodes.length ≤ 511) :
    h.depth ≤ 255 := by
  have := holds.once.length_eq
  rw [length_shaped_indices holds.held, length_indexRange] at this
  exact shaped_depth_le (by omega)

theorem counted_of_makeLeaves {ls : List Node} (hl : makeLeaves freq = ls) :
    (counted freq).map (fun b => Node.leaf b (entry freq b)) = ls := hl

/-- BUILD of one symbol: the Leaf below a synthetic root (R145). -/
theorem holds_lone (b : Byte) (w : Data) : Holds [.leaf b w, .internal w 0 Config.nil] 1 (.lone (.leaf b)) where
  held := heldAt_lone.2 ⟨by decide, w, 0, rfl, by decide, heldAt_leaf.2 ⟨w, rfl⟩⟩
  once := .swap 0 1 []

/-- BUILD makes one tree of the shape SHAPE says, with one leaf per counted symbol (R31, R140 to R146). -/
theorem built_holds (s : State) :
    ∃ h, OfBuild h ∧ h.shape = s.built.shape ∧ Holds s.built.nodes s.built.root h ∧
      (symbolsOf h).Perm (counted s.freq) := by
  unfold State.built
  dsimp only
  split
  · next hm =>
    have hc : counted s.freq = [] := by simpa using counted_of_makeLeaves hm
    exact ⟨.empty, .empty, rfl, ⟨rfl, .refl _⟩, by rw [hc]; exact .refl _⟩
  · next l hm =>
    obtain ⟨b, hc, rfl⟩ := List.map_eq_singleton_iff.1 (counted_of_makeLeaves hm)
    exact ⟨.lone (.leaf b), .lone b, rfl, holds_lone b _, by rw [hc]; exact .refl _⟩
  · next hm =>
    obtain ⟨r, t, hpq, held, once, leaves, -⟩ := grown_tree (freq := s.freq) (by simp [hm])
    have grown := (grown_length (leaves := makeLeaves s.freq) (by simp [hm])).2
    have few := distinct_le s.freq
    rw [makeLeaves_length] at grown
    have root_lt : r.toNat < 511 := by
      have := lt_of_heldAt held
      omega
    rw [hpq, List.headD_cons]
    refine ⟨.full t, ?_, rfl, ⟨heldAt_full.2 ⟨ne_nil_of_lt root_lt, held⟩, once⟩, symbolsOf_full t ▸ leaves⟩
    cases t with
    | leaf sym =>
      have two := leaves.length_eq
      rw [length_counted, ← makeLeaves_length, hm] at two
      simp [Tree.paths] at two
    | node l r => exact .full l r

theorem leafCount_of_counted (perm : (symbolsOf h).Perm (counted freq)) : h.leafCount = distinct freq := by
  rw [← length_symbolsOf, perm.length_eq, length_counted]

theorem built_of_two (h : 2 ≤ distinct s.freq) :
    s.built.nodes = (Forest.grown (makeLeaves s.freq)).nodes ∧
      s.built.root = (Forest.grown (makeLeaves s.freq)).pq.headD Config.nil := by
  rw [← makeLeaves_length] at h
  unfold State.built
  dsimp only
  split
  · next hm => simp [hm] at h
  · next hm => simp [hm] at h
  · exact ⟨rfl, rfl⟩

/-- Settles O29: BUILD's tree is the one the merges grow, and its root carries the sum of the weights. -/
theorem buildMakesOneFullTree : Obligations.BuildMakesOneFullTree := by
  intro s t _ htv hd htotal he ht
  rw [exec, execBuild] at he
  rcases issued_cases .build s (fun s => complete 0 s.built) with ⟨resp, _, e⟩ | ⟨_, e⟩ <;> cases e.symm.trans he
  · exact absurd (htv.symm.trans ht) (by decide)
  have hm : makeLeaves s.freq ≠ [] := List.ne_nil_of_length_pos (by rw [makeLeaves_length]; omega)
  obtain ⟨r, h, hpq, held, once, leaves, weight⟩ := grown_tree hm
  obtain ⟨hnodes, hroot⟩ : ((s.accept .build).built.respond respOk 0).nodes = (Forest.grown (makeLeaves s.freq)).nodes ∧
      ((s.accept .build).built.respond respOk 0).root = r := by
    obtain ⟨hn, hr⟩ := built_of_two (s := s.accept .build) hd
    exact ⟨hn, hr.trans (by rw [State.accept_freq, hpq]; rfl)⟩
  rw [hnodes, hroot]
  refine ⟨h, held, once, leaves, ?_⟩
  have weight : weightAt (Forest.grown (makeLeaves s.freq)).nodes r = s.total :=
    BitVec.eq_of_toNat_eq ((weight (htotal ▸ s.total.isLt)).trans htotal.symm)
  obtain ⟨n, hn⟩ := nodeAt_of_lt (lt_of_heldAt held)
  rw [weightAt, hn] at weight
  rw [hn, ← weight]
  rfl

/-! ### The code book of GEN -/

section CodeTable
variable {codes : List (Byte × List Bool)} {b : Byte} {q : List Bool}

theorem entry_foldl_of_not_mem (code : Vector Code 256) (hb : b ∉ codes.map (·.1)) :
    entry (codes.foldl (fun c x => setEntry c x.1 (Code.ofPath x.2)) code) b = entry code b := by
  induction codes generalizing code with
  | nil => rfl
  | cons x codes ih =>
    rw [List.map_cons, List.mem_cons, not_or] at hb
    rw [List.foldl_cons, ih _ hb.2, entry_setEntry_ne _ _ hb.1]

theorem entry_foldl_of_mem (code : Vector Code 256) (hn : (codes.map (·.1)).Nodup) (hb : (b, q) ∈ codes) :
    entry (codes.foldl (fun c x => setEntry c x.1 (Code.ofPath x.2)) code) b = Code.ofPath q := by
  induction codes generalizing code with
  | nil => cases hb
  | cons x codes ih =>
    rw [List.map_cons, List.nodup_cons] at hn
    rw [List.foldl_cons]
    rcases List.mem_cons.1 hb with rfl | hb
    · rw [entry_foldl_of_not_mem _ hn.1, entry_setEntry_same]
    · exact ih _ hn.2 hb

/-- A symbol on no leaf has no code (R160). -/
theorem entry_codeTable_of_not_mem (hb : b ∉ codes.map (·.1)) : entry (codeTable codes) b = ⟨0, 0⟩ :=
  (entry_foldl_of_not_mem _ hb).trans (entry_replicate _ b)

/-- A symbol on one leaf has that leaf's code (R161). -/
theorem entry_codeTable_of_mem (hn : (codes.map (·.1)).Nodup) (hb : (b, q) ∈ codes) :
    entry (codeTable codes) b = Code.ofPath q := entry_foldl_of_mem _ hn hb

end CodeTable

/-- The codes of a full tree of two leaves or more are its paths: none is empty (R162). -/
theorem codes_full (l r : Tree) : (Shaped.full (.node l r)).codes = (Tree.node l r).paths := by
  rw [Shaped.codes]
  refine (List.map_congr_left fun x hx => ?_).trans (List.map_id _)
  have : x.2 ≠ [] := by
    rintro hx'
    rcases List.mem_append.1 hx with h | h <;> obtain ⟨y, -, rfl⟩ := List.mem_map.1 h <;> cases hx'
  rw [if_neg this]
  rfl

/-- A code has 1 to max(1, n - 1) bits (R33 b). -/
theorem OfBuild.code_length (hb : OfBuild h) {x : Byte × List Bool} (hx : x ∈ h.codes) :
    1 ≤ x.2.length ∧ x.2.length ≤ max 1 (h.leafCount - 1) := by
  cases hb with
  | empty => cases hx
  | lone b =>
    obtain rfl : x = (b, [false]) := List.mem_singleton.1 hx
    exact ⟨le_rfl, le_max_left _ _⟩
  | full l r =>
    rw [codes_full] at hx
    have := path_length_le hx
    have := depth_lt_leafCount (.node l r)
    have pos : 1 ≤ x.2.length := by
      rcases List.mem_append.1 hx with h | h <;> obtain ⟨y, -, rfl⟩ := List.mem_map.1 h <;> exact Nat.succ_pos _
    rw [Shaped.leafCount]
    omega

/-- No code is an initial part of another (R33 d). -/
theorem OfBuild.codes_pairwise (hb : OfBuild h) : h.codes.Pairwise Apart := by
  cases hb with
  | empty => exact .nil
  | lone b => exact List.pairwise_singleton _ _
  | full l r => exact codes_full l r ▸ paths_pairwise _

/-- Kraft equality, scaled by 2^255 (R33 c). -/
theorem OfBuild.kraft (hb : OfBuild h) (hd : h.depth ≤ 255) : (h.codes.map fun x => 2 ^ (255 - x.2.length)).sum =
    if h.leafCount = 0 then 0 else if h.leafCount = 1 then 2 ^ 254 else 2 ^ 255 := by
  cases hb with
  | empty => rfl
  | lone b => simp [Shaped.codes, Tree.paths, Shaped.leafCount, Tree.leafCount]
  | full l r =>
    have two : 2 ≤ (Shaped.full (.node l r)).leafCount := by
      have := depth_lt_leafCount l
      have := depth_lt_leafCount r
      rw [Shaped.leafCount, Tree.leafCount]
      omega
    rw [codes_full, kraft_paths _ 255 hd, if_neg (by omega), if_neg (by omega)]

/-- GEN on a held tree writes the code table of its codes and leaves the rest of the tree as it is (R160). -/
theorem exec_gen_of_held (hc : checks .gen s = none) (held : h.heldAt s.nodes s.root = true) (hd : h.depth ≤ 255) :
    ∃ walked, exec .gen s = .next (((s.accept .gen).generated (codeTable h.codes) walked).respond respOk 0) := by
  rw [exec, execGen, issued_of_pass hc]
  by_cases hr : s.root = Config.nil
  · have empty : h = .empty := by
      cases h with
      | empty => rfl
      | lone t => exact absurd hr (heldAt_lone.1 held).1
      | full t => exact absurd hr (heldAt_full.1 held).1
    exact ⟨false, by simp [hr, empty, Shaped.codes, codeTable, emptyCode, complete]⟩
  · exact ⟨true, by simp [hr, walk_shaped held hr hd, complete]⟩

/-- BUILD and then GEN write the code table of a tree of BUILD with one leaf per counted symbol. -/
theorem build_then_gen (hi : s.phase = .idle) (he : s.err = false) (hf : s.fv = true) (ht : s.tv = false)
    (hb : s.bv = false) : ∃ t u h, exec .build s = .next t ∧ exec .gen t = .next u ∧ u.code = codeTable h.codes ∧
      OfBuild h ∧ h.depth ≤ 255 ∧ (symbolsOf h).Perm (counted s.freq) := by
  obtain ⟨h, ofBuild, -, holds, perm⟩ := built_holds (s.accept .build)
  have frame : (s.accept .build).built.phase = .idle ∧ (s.accept .build).built.err = false ∧
      (s.accept .build).built.tv = true ∧ (s.accept .build).built.bv = false := by
    rw [built_frame]
    exact ⟨hi, he, rfl, hb⟩
  obtain ⟨hi', he', ht', hb'⟩ := frame
  have fits : (s.accept .build).built.nodes.length ≤ 511 := built_nodes_length _
  obtain ⟨walked, e⟩ := exec_gen_of_held (s := (s.accept .build).built.respond respOk 0) (pass_gen hi' he' ht' hb')
    holds.held (holds.depth_le fits)
  refine ⟨_, _, h, ?_, e, rfl, ofBuild, holds.depth_le fits, perm⟩
  rw [exec, execBuild, issued_of_pass (pass_build hi he hf ht)]
  rfl

section CodeBook
variable (perm : (symbolsOf h).Perm (counted freq))
include perm

theorem nodup_of_counted : (h.codes.map (·.1)).Nodup := perm.nodup_iff.2 (nodup_counted freq)

/-- The entry of a leaf's symbol is the leaf's code. -/
theorem code_of_mem (hb : OfBuild h) {x : Byte × List Bool} (hx : x ∈ h.codes) :
    (entry (codeTable h.codes) x.1).len.toNat = x.2.length ∧ (entry (codeTable h.codes) x.1).path = x.2 := by
  have short : x.2.length ≤ 255 := by
    have := (hb.code_length hx).2
    have := leafCount_of_counted perm
    have := distinct_le freq
    omega
  rw [entry_codeTable_of_mem (nodup_of_counted perm) hx]
  exact ⟨len_ofPath x.2 short, path_ofPath x.2 short⟩

theorem len_ne_zero_of_mem (hb : OfBuild h) {x : Byte × List Bool} (hx : x ∈ h.codes) :
    (entry (codeTable h.codes) x.1).len ≠ 0 := by
  intro h0
  have hlen := (code_of_mem perm hb hx).1
  have := (hb.code_length hx).1
  rw [h0, show (0 : BitVec 8).toNat = 0 from rfl] at hlen
  omega

theorem exists_code_of_counted {b : Byte} (hc : entry freq b ≠ 0) : ∃ x ∈ h.codes, x.1 = b :=
  List.mem_map.1 (perm.mem_iff.2 (mem_counted.2 hc))

theorem code_of_uncounted {b : Byte} (hc : entry freq b = 0) : (entry (codeTable h.codes) b).len = 0 := by
  rw [entry_codeTable_of_not_mem fun hb => mem_counted.1 (perm.mem_iff.1 hb) hc]

end CodeBook

/-- Settles O33: the codes are the paths of the leaves, one leaf for each counted symbol. -/
theorem codeBookIsPrefixFree : Obligations.CodeBookIsPrefixFree := by
  intro s hi he hf ht hb
  obtain ⟨t, u, h, hbuild, hgen, hcode, ofBuild, hd, perm⟩ := build_then_gen hi he hf ht hb
  refine ⟨t, u, hbuild, hgen, fun b => ?_, fun b => ?_, fun a b hab ha hb => ?_⟩ <;> rw [hcode]
  · refine ⟨fun hl hc => hl (code_of_uncounted perm hc), fun hc => ?_⟩
    obtain ⟨x, hx, rfl⟩ := exists_code_of_counted perm hc
    exact len_ne_zero_of_mem perm ofBuild hx
  · by_cases hc : entry s.freq b = 0
    · rw [code_of_uncounted perm hc]
      exact Nat.zero_le _
    · obtain ⟨x, hx, rfl⟩ := exists_code_of_counted perm hc
      rw [(code_of_mem perm ofBuild hx).1, ← leafCount_of_counted perm]
      exact (ofBuild.code_length hx).2
  · obtain ⟨x, hx, rfl⟩ := exists_code_of_counted perm ha
    obtain ⟨y, hy, rfl⟩ := exists_code_of_counted perm hb
    rw [(code_of_mem perm ofBuild hx).2, (code_of_mem perm ofBuild hy).2]
    have := symm_apart
    have apart : Apart x y := ofBuild.codes_pairwise.forall hx hy fun e => hab (congrArg Prod.fst e)
    exact apart.1

/-- Settles O34: the sum over all symbols is the sum over the leaves, and that is Kraft's of a full tree. -/
theorem kraftEquality : Obligations.KraftEquality := by
  intro s hi he hf ht hb
  obtain ⟨t, u, h, hbuild, hgen, hcode, ofBuild, hd, perm⟩ := build_then_gen hi he hf ht hb
  refine ⟨t, u, hbuild, hgen, ?_⟩
  rw [hcode, ← leafCount_of_counted perm, ← ofBuild.kraft hd,
    ← sum_counted s.freq _ fun b hc => if_pos (code_of_uncounted perm hc), ← (perm.map _).sum_eq, symbolsOf, List.map_map]
  refine congrArg List.sum (List.map_congr_left fun x hx => ?_)
  rw [Function.comp_apply, if_neg (len_ne_zero_of_mem perm ofBuild hx), (code_of_mem perm ofBuild hx).1]

end Sys2Proof.Safety

/-! SUPPORT. NODE holds one tree whenever TV = 1, while TDES reads it holds the part read so far, and no command is led
outside it (10_state.md R31, 44_treecodec.md R177, 45_bitstream.md R211). -/

namespace Sys2Proof.Safety

open Sys2Proof.Machine

variable {nodes : List Node} {i j r : NodeIdx} {s : State}

/-! ### The table while TDES reads (R177) -/

/-- The calls of Des() not returned from, innermost first, with the entries they have made: an Internal node whose children
are still to come, or one whose left child has been read. -/
inductive Unfinished (nodes : List Node) : List DesFrame → List NodeIdx → Prop
  | root : Unfinished nodes [] []
  | lone {w : Data} : nodeAt nodes 0 = some (.internal w Config.nil Config.nil) → Unfinished nodes [.lone] [0]
  | left {i : NodeIdx} {w : Data} {stack : List DesFrame} {used : List NodeIdx} :
      nodeAt nodes i = some (.internal w Config.nil Config.nil) → Unfinished nodes stack used →
      Unfinished nodes (.left i :: stack) (i :: used)
  | right {i a : NodeIdx} {w : Data} {l : Tree} {stack : List DesFrame} {used : List NodeIdx} :
      nodeAt nodes i = some (.internal w a Config.nil) → a ≠ Config.nil → l.heldAt nodes a = true →
      Unfinished nodes stack used → Unfinished nodes (.right i :: stack) (i :: (l.indices nodes a ++ used))

/-- The entries so far are those of the unfinished calls, each once. -/
def Reading (nodes : List Node) (stack : List DesFrame) : Prop :=
  ∃ used, Unfinished nodes stack used ∧ used.Perm (indexRange nodes.length)

/-- Des() returns the tree `t` at `r` to the calls of `stack`; all entries are in the tree or in those calls. -/
structure Returning (nodes : List Node) (r : NodeIdx) (t : Tree) (stack : List DesFrame) (used : List NodeIdx) : Prop where
  held : t.heldAt nodes r = true
  calls : Unfinished nodes stack used
  once : (t.indices nodes r ++ used).Perm (indexRange nodes.length)

/-- The unfinished calls depend on their own entries only. -/
theorem Unfinished.of_agree {nodes' : List Node} {stack : List DesFrame} {used : List NodeIdx}
    (h : Unfinished nodes stack used) (agree : ∀ j ∈ used, nodeAt nodes' j = nodeAt nodes j) :
    Unfinished nodes' stack used := by
  induction h with
  | root => exact .root
  | lone h => exact .lone ((agree _ (by simp)).trans h)
  | left h _ ih => exact .left ((agree _ (by simp)).trans h) (ih fun j hj => agree j (by simp [hj]))
  | @right i a w l stack used h ha held _ ih =>
    have ⟨held', same⟩ := indices_congr (t := l) (i := a) fun j hj => agree j (by simp [hj])
    rw [← same]
    exact .right ((agree _ (by simp)).trans h) ha (held'.trans held) (ih fun j hj => agree j (by simp [hj]))

theorem nodeAt_modify_same {n : Node} (f : Node → Node) (h : nodeAt nodes i = some n) :
    nodeAt (nodes.modify i.toNat f) i = some (f n) := by
  rw [nodeAt] at h ⊢
  simp [h]

theorem nodeAt_modify_ne (f : Node → Node) (h : j ≠ i) : nodeAt (nodes.modify i.toNat f) j = nodeAt nodes j := by
  have : i.toNat ≠ j.toNat := fun e => h (BitVec.eq_of_toNat_eq e.symm)
  simp [nodeAt, this]

theorem indexRange_concat_perm {n : Nat} {used : List NodeIdx} (h : used.Perm (indexRange n)) :
    (BitVec.ofNat 9 n :: used).Perm (indexRange (n + 1)) := by
  rw [indexRange_succ]
  exact (h.cons _).trans (List.perm_append_comm (l₁ := [_]))

theorem agree_of_perm {used : List NodeIdx} (once : used.Perm (indexRange nodes.length)) (fits : nodes.length ≤ 511)
    (more : List Node) : ∀ j ∈ used, nodeAt (nodes ++ more) j = nodeAt nodes j :=
  fun _ hj => nodeAt_append ((mem_indexRange (by omega)).1 (once.mem_iff.1 hj)) more

section Returning
variable {t : Tree} {stack : List DesFrame} {used : List NodeIdx}

/-- A Leaf read is returned at once. -/
theorem Reading.leaf (h : Reading nodes stack) (fits : nodes.length < 511) (b : Byte) :
    ∃ used, Returning (nodes ++ [.leaf b 0]) (BitVec.ofNat 9 nodes.length) (.leaf b) stack used := by
  obtain ⟨used, calls, once⟩ := h
  refine ⟨used, heldAt_leaf.2 ⟨0, nodeAt_concat (by omega) _⟩, calls.of_agree (agree_of_perm once fits.le _), ?_⟩
  rw [List.length_append]
  exact indexRange_concat_perm once

/-- An Internal tag opens a call. -/
theorem Reading.internal (h : Reading nodes stack) (fits : nodes.length < 511) :
    Reading (nodes ++ [.internal 0 Config.nil Config.nil]) (.left (BitVec.ofNat 9 nodes.length) :: stack) := by
  obtain ⟨used, calls, once⟩ := h
  refine ⟨_, .left (nodeAt_concat (by omega) _) (calls.of_agree (agree_of_perm once fits.le _)), ?_⟩
  rw [List.length_append]
  exact indexRange_concat_perm once

theorem Returning.nodup (h : Returning nodes r t stack used) (fits : nodes.length ≤ 511) :
    (t.indices nodes r ++ used).Nodup := h.once.nodup_iff.2 (nodup_indexRange (by omega))

theorem Returning.ne_nil (h : Returning nodes r t stack used) (fits : nodes.length ≤ 511) : r ≠ Config.nil :=
  ne_nil_of_lt ((lt_of_heldAt h.held).trans_le fits)

/-- A write to an entry outside a tree keeps the tree. -/
theorem heldAt_modify (f : Node → Node) (held : t.heldAt nodes r = true) (hi : i ∉ t.indices nodes r) :
    t.heldAt (nodes.modify i.toNat f) r = true ∧ t.indices (nodes.modify i.toNat f) r = t.indices nodes r := by
  have ⟨held', same⟩ := indices_congr (nodes' := nodes.modify i.toNat f) fun j hj =>
    nodeAt_modify_ne f fun e => hi (e ▸ hj)
  exact ⟨held'.trans held, same⟩

/-- A left child returned: the right one is next. -/
theorem Returning.left (h : Returning nodes r t (.left i :: stack) used) (fits : nodes.length ≤ 511) :
    Reading (nodes.modify i.toNat (Node.withLeft r)) (.right i :: stack) := by
  have nodup := h.nodup fits
  have hr := h.ne_nil fits
  obtain ⟨held, calls, once⟩ := h
  cases calls with
  | left hi calls =>
    have ⟨hit, hiu⟩ := not_or.1 (List.mem_append.not.1 (List.nodup_middle.1 nodup).notMem)
    have ⟨held', same⟩ := heldAt_modify (Node.withLeft r) held hit
    refine ⟨_, .right (nodeAt_modify_same _ hi) hr held'
      (calls.of_agree fun j hj => nodeAt_modify_ne _ fun e => hiu (e ▸ hj)), ?_⟩
    rw [same, List.length_modify]
    exact List.perm_middle.symm.trans once

/-- A right child returned: the node itself is returned. -/
theorem Returning.right (h : Returning nodes r t (.right i :: stack) used) (fits : nodes.length ≤ 511) :
    ∃ t used, Returning (nodes.modify i.toNat (Node.withRight r)) i t stack used := by
  have nodup := h.nodup fits
  have hr := h.ne_nil fits
  obtain ⟨held, calls, once⟩ := h
  cases calls with
  | @right _ a w l _ used hi ha heldl calls =>
    have hnot := (List.nodup_middle.1 nodup).notMem
    simp only [List.mem_append, not_or] at hnot
    obtain ⟨hit, hil, hiu⟩ := hnot
    have ⟨held', same⟩ := heldAt_modify (Node.withRight r) held hit
    have ⟨heldl', samel⟩ := heldAt_modify (Node.withRight r) heldl hil
    have hi' := nodeAt_modify_same (Node.withRight r) hi
    refine ⟨.node l t, used, heldAt_node.2 ⟨w, a, r, hi', ha, hr, heldl', held'⟩,
      calls.of_agree fun j hj => nodeAt_modify_ne _ fun e => hiu (e ▸ hj), ?_⟩
    rw [indices_node hi', same, samel, List.length_modify]
    refine .trans ?_ (List.perm_middle.symm.trans once)
    rw [List.cons_append, ← List.append_assoc]
    exact (List.perm_append_comm.append_right used).cons i

/-- The lone child returned: the shape-1 root is complete. -/
theorem Returning.lone (h : Returning nodes r t (.lone :: stack) used) (fits : nodes.length ≤ 511) :
    Holds (nodes.modify (0 : NodeIdx).toNat (Node.withLeft r)) 0 (.lone t) := by
  have nodup := h.nodup fits
  have hr := h.ne_nil fits
  obtain ⟨held, calls, once⟩ := h
  cases calls with
  | lone hi =>
    have hit : (0 : NodeIdx) ∉ t.indices nodes r := by simpa using (List.nodup_middle.1 nodup).notMem
    have ⟨held', same⟩ := heldAt_modify (Node.withLeft r) held hit
    have hi' := nodeAt_modify_same (Node.withLeft r) hi
    refine ⟨heldAt_lone.2 ⟨by decide, _, r, hi', hr, held'⟩, ?_⟩
    rw [indices_lone hi', same, List.length_modify]
    exact (List.perm_append_comm (l₁ := [_])).trans once

/-- The root returned: the tree is complete. -/
theorem Returning.root (h : Returning nodes r t [] used) (fits : nodes.length ≤ 511) : Holds nodes r (.full t) := by
  have hr := h.ne_nil fits
  obtain ⟨held, calls, once⟩ := h
  cases calls
  rw [List.append_nil] at once
  exact ⟨heldAt_full.2 ⟨hr, held⟩, once⟩

end Returning

/-! ### The table once there is a tree -/

/-- An index that is followed names an entry. -/
structure Closed (nodes : List Node) (root : NodeIdx) : Prop where
  root : root = Config.nil ∨ root.toNat < nodes.length
  children : ∀ {i w l r}, nodeAt nodes i = some (.internal w l r) →
    l.toNat < nodes.length ∧ (r = Config.nil ∨ r.toNat < nodes.length)

theorem Holds.closed {root : NodeIdx} {h : Shaped} (holds : Holds nodes root h) (fits : nodes.length ≤ 511) :
    Closed nodes root where
  root := shaped_root_lt holds.held
  children hn := shaped_children holds.held
    (holds.once.mem_iff.2 ((mem_indexRange (by omega)).2 (nodeAt_lt hn))) hn

theorem tableHoldsOneTree_iff : TableHoldsOneTree s ↔ ∃ h : Shaped, h.shape = s.shape ∧ Holds s.nodes s.root h :=
  ⟨fun ⟨h, hs, held, once⟩ => ⟨h, hs, held, once⟩, fun ⟨h, hs, held, once⟩ => ⟨h, hs, held, once⟩⟩

/-- What a running command's place says of the table: TSER and DEC stand at defined entries, TDES has read a part. -/
def Stands (s : State) : Prop :=
  match s.phase with
  | .serPush todo => s.tv = true ∧ ∀ i, .node i ∈ todo → i.toNat < s.nodes.length
  | .desRoot => s.tv = false ∧ s.nodes = []
  | .desTag stack => s.tv = false ∧ Reading s.nodes stack
  | .desSym stack => s.tv = false ∧ s.nodes.length < 511 ∧ Reading s.nodes stack
  | .decPop => s.tv = true ∧ s.cur.toNat < s.nodes.length
  | .decPush _ => s.tv = true
  | .idle | .profPop | .encPop | .encPush _ _ | .encFlush => True

/-- The invariant of the tree: it is one of the shape SHAPE says once TV = 1 (R31), and every running command stays in it. -/
structure TreeInv (s : State) : Prop where
  fits : s.nodes.length ≤ 511
  tree : s.tv = true → TableHoldsOneTree s
  stands : Stands s

/-- There is a tree, and NODE holds it. -/
structure HasTree (s : State) : Prop where
  tv : s.tv = true
  fits : s.nodes.length ≤ 511
  tree : TableHoldsOneTree s

theorem TreeInv.hasTree (h : TreeInv s) (ht : s.tv = true) : HasTree s := ⟨ht, h.fits, h.tree ht⟩

theorem HasTree.inv (h : HasTree s) (stands : Stands s) : TreeInv s := ⟨h.fits, fun _ => h.tree, stands⟩

theorem HasTree.closed (h : HasTree s) : Closed s.nodes s.root := by
  obtain ⟨_, _, holds⟩ := tableHoldsOneTree_iff.1 h.tree
  exact holds.closed h.fits

theorem TreeInv.respond (h : TreeInv s) (resp : BitVec 4) (v : Data) : TreeInv (s.respond resp v) := { h with }

theorem TreeInv.finish (h : TreeInv s) : TreeInv s.finish := { h with stands := trivial }

theorem TreeInv.raise (h : TreeInv s) (e : Err) : TreeInv (s.raise e) := { h with stands := trivial }

theorem TreeInv.popped (h : TreeInv s) (it : Item) (rest : List Item) : TreeInv (s.popped it rest) := { h with }

theorem TreeInv.pushed (h : TreeInv s) (b : Byte) : TreeInv (s.pushed b) := { h with }

theorem TreeInv.answered (h : TreeInv s) : TreeInv s.answered := { h with }

theorem TreeInv.accept (h : TreeInv s) (i : Instr) : TreeInv (s.accept i) := { h with }

/-- While TV = 0 the table is nobody's (R31). -/
theorem treeInv_of_no_tree (ht : s.tv = false) (fits : s.nodes.length ≤ 511) (stands : Stands s) : TreeInv s :=
  ⟨fits, fun e => absurd (ht.symm.trans e) (by decide), stands⟩

/-! ### The micro-steps -/

theorem sat_tree_profMicro (h : TreeInv s) : Sat False TreeInv (profMicro s) := by
  refine sat_inPop h (fun b rest => ?_) (fun rest => { h with stands := trivial }) fun rest => (h.popped _ _).raise _
  dsimp only
  split
  · exact (h.popped _ _).raise _
  · exact { h with }

theorem tree_serGoOn (h : TreeInv s) (ht : s.tv = true) {todo : List SerWork}
    (hw : ∀ i, .node i ∈ todo → i.toNat < s.nodes.length) : TreeInv (serGoOn todo s) := by
  cases todo with
  | nil => exact h.finish
  | cons w todo => exact { h with stands := ⟨ht, hw⟩ }

theorem mem_serChild : .node j ∈ serChild i ↔ i ≠ Config.nil ∧ j = i := by
  unfold serChild
  split <;> simp [*]

theorem sat_tree_serMicro {todo : List SerWork} (h : TreeInv s) (hp : s.phase = .serPush todo) :
    Sat False TreeInv (serMicro todo s) := by
  obtain ⟨ht, hw⟩ : s.tv = true ∧ ∀ i, .node i ∈ todo → i.toNat < s.nodes.length := by
    simpa [Stands, hp] using h.stands
  have push (b : Byte) {todo : List SerWork} (hw : ∀ i, .node i ∈ todo → i.toNat < s.nodes.length) :
      Sat False TreeInv (outPush b s fun s => .next (serGoOn todo s)) :=
    sat_outPush h (tree_serGoOn (h.pushed b) ht hw) (h.answered.raise _)
  cases todo with
  | nil => exact h.finish
  | cons w rest =>
    have hrest : ∀ i, .node i ∈ rest → i.toNat < s.nodes.length := fun i hi => hw i (by simp [hi])
    cases w with
    | sym b => exact push b hrest
    | node i =>
      obtain ⟨n, hn⟩ := nodeAt_of_lt (hw i (by simp))
      simp only [serMicro, hn]
      cases n with
      | leaf sym w => exact push _ fun i hi => hrest i (by simpa using hi)
      | internal w l r =>
        have ⟨hl, hr⟩ := (h.hasTree ht).closed.children hn
        refine push _ fun j hj => ?_
        rw [List.mem_append, List.mem_append, mem_serChild, mem_serChild] at hj
        rcases hj with (⟨-, rfl⟩ | ⟨hnil, rfl⟩) | hj
        · exact hl
        · exact hr.resolve_left hnil
        · exact hrest j hj

theorem sat_tree_getByte {k : Byte → State → Result} (h : TreeInv s)
    (byte : ∀ b rest, Sat False TreeInv (k b (s.popped (.byte b) rest))) : Sat False TreeInv (getByte s k) :=
  sat_inPop h byte (fun _ => (h.popped _ _).raise _) fun _ => (h.popped _ _).raise _

/-- Des() returning leaves the whole tree, or the part read so far (R177). -/
theorem tree_desReturn (r : NodeIdx) (stack : List DesFrame) (s : State) {t : Tree} {used : List NodeIdx}
    (ht : s.tv = false) (fits : s.nodes.length ≤ 511) (h : Returning s.nodes r t stack used) :
    TreeInv (desReturn r stack s) := by
  have complete {s : State} {root : NodeIdx} {h : Shaped} (fits : s.nodes.length ≤ 511) (holds : Holds s.nodes root h) :
      TreeInv (s.treeRead root h.shape) :=
    { fits := fits, tree := fun _ => tableHoldsOneTree_iff.2 ⟨h, rfl, holds⟩, stands := trivial }
  induction stack generalizing r s t used with
  | nil => exact complete fits (h.root fits)
  | cons f stack ih =>
    have fits' (i : NodeIdx) (f : Node → Node) : (s.modifyNode i f).nodes.length ≤ 511 := by simpa using fits
    cases f with
    | lone => exact complete (s := s.modifyNode 0 (Node.withLeft r)) (fits' _ _) (h.lone fits)
    | left i =>
      exact treeInv_of_no_tree ht (fits' _ _) ⟨ht, h.left fits⟩
    | right i =>
      obtain ⟨t, used, h⟩ := h.right fits
      exact ih i _ ht (fits' _ _) h

theorem sat_tree_desRootMicro (h : TreeInv s) (hp : s.phase = .desRoot) : Sat False TreeInv (desRootMicro s) := by
  obtain ⟨ht, hn⟩ : s.tv = false ∧ s.nodes = [] := by simpa [Stands, hp] using h.stands
  refine sat_tree_getByte h fun t rest => ?_
  dsimp only
  split
  · exact (h.popped _ _).raise _
  · have root : Reading (s.nodes ++ [.internal 0 Config.nil Config.nil]) [.lone] := by
      rw [hn]
      exact ⟨[0], .lone rfl, .refl _⟩
    have fits : (s.nodes ++ [Node.internal 0 Config.nil Config.nil]).length ≤ 511 := by simp [hn]
    exact treeInv_of_no_tree ht fits ⟨ht, root⟩

theorem sat_tree_desTagMicro {stack : List DesFrame} (h : TreeInv s) (hp : s.phase = .desTag stack) :
    Sat False TreeInv (desTagMicro stack s) := by
  obtain ⟨ht, reading⟩ : s.tv = false ∧ Reading s.nodes stack := by simpa [Stands, hp] using h.stands
  refine sat_tree_getByte h fun t rest => ?_
  dsimp only
  split
  · exact (h.popped _ _).raise _
  split
  · exact (h.popped _ _).raise _
  next hn =>
  have room : s.nodes.length < 511 := lt_of_le_of_ne h.fits hn
  split
  · exact { h with stands := ⟨ht, room, reading⟩ }
  · have fits : (s.nodes ++ [Node.internal 0 Config.nil Config.nil]).length ≤ 511 := by rw [List.length_append]; exact room
    exact treeInv_of_no_tree ht fits ⟨ht, reading.internal room⟩

theorem sat_tree_desSymMicro {stack : List DesFrame} (h : TreeInv s) (hp : s.phase = .desSym stack) :
    Sat False TreeInv (desSymMicro stack s) := by
  obtain ⟨ht, room, reading⟩ : s.tv = false ∧ s.nodes.length < 511 ∧ Reading s.nodes stack := by
    simpa [Stands, hp] using h.stands
  refine sat_tree_getByte h fun b rest => ?_
  obtain ⟨used, returning⟩ := reading.leaf room b
  have fits : (s.nodes ++ [Node.leaf b 0]).length ≤ 511 := by rw [List.length_append]; exact room
  exact tree_desReturn _ stack _ ht fits returning

theorem tree_putBits (h : TreeInv s) (bits : List Bool) : TreeInv (putBits bits s) := by
  have stands : Stands (putBits bits s) := by
    rcases putBits_phase bits s with ⟨_, _, _, hp, _⟩ | hp <;> simp [Stands, hp]
  rw [putBits_frame] at stands ⊢
  exact { h with stands := stands }

theorem sat_tree_encPopMicro (h : TreeInv s) : Sat False TreeInv (encPopMicro s) := by
  refine sat_inPop h (fun b rest => ?_) (fun rest => ?_) fun rest => (h.popped _ _).raise _ <;> dsimp only <;> split
  · exact (h.popped _ _).raise _
  · exact tree_putBits (h.popped _ rest) _
  · exact { h with stands := trivial }
  · exact { h with stands := trivial }

theorem sat_tree_encPushMicro (h : TreeInv s) (v : Bool) (rest : List Bool) :
    Sat False TreeInv (encPushMicro v rest s) :=
  sat_outPush h (tree_putBits (s := (s.pushed (s.shiftedIn v)).emptyAcc) { h with } rest) (h.answered.raise _)

theorem sat_tree_encFlushMicro (h : TreeInv s) : Sat False TreeInv (encFlushMicro s) :=
  sat_outPush h { h with stands := trivial } (h.answered.raise _)

theorem HasTree.raise (h : HasTree s) (e : Err) : TreeInv (s.raise e) := HasTree.inv { h with } trivial

theorem HasTree.decPush (h : HasTree s) (sym : Byte) : TreeInv { s with phase := .decPush sym } :=
  HasTree.inv { h with } h.tv

/-- A walk to a child that is absent or defined ends in an error or at a symbol, or goes on (R206). -/
theorem sat_tree_walkTo {child : NodeIdx} {k : State → Result} (h : HasTree s)
    (hc : child = Config.nil ∨ child.toNat < s.nodes.length)
    (goes : child.toNat < s.nodes.length → Sat False TreeInv (k { s with cur := child })) :
    Sat False TreeInv (walkTo child s k) := by
  unfold walkTo
  split
  · exact h.raise _
  · next hnil =>
    have hlt := hc.resolve_left hnil
    obtain ⟨n, hn⟩ := nodeAt_of_lt hlt
    rw [hn]
    cases n with
    | leaf sym w => exact HasTree.decPush (s := { s with cur := child }) { h with } sym
    | internal w l r => exact goes hlt

/-- DEC's walk stays in the tree (R206, R211). -/
theorem sat_tree_decBits (n : Nat) (s : State) (h : HasTree s) (hcur : s.cur.toNat < s.nodes.length) :
    Sat False TreeInv (decBits n s) := by
  induction n generalizing s with
  | zero => exact HasTree.inv { h with } ⟨h.tv, hcur⟩
  | succ n ih =>
    have taken : HasTree s.bitTaken := { h with }
    obtain ⟨node, hn⟩ := nodeAt_of_lt hcur
    rw [decBits, walkBit, State.bitTaken_nodes, State.bitTaken_cur, hn]
    cases node with
    | leaf sym w =>
      dsimp only
      split
      · exact taken.raise _
      · exact taken.decPush sym
    | internal w l r =>
      have ⟨hl, hr⟩ := h.closed.children hn
      refine sat_tree_walkTo taken ?_ fun hlt => ih _ { taken with } hlt
      split
      · exact hr
      · exact .inr hl

theorem sat_tree_decNext (h : HasTree s) : Sat False TreeInv (decNext s) := by
  unfold decNext
  split
  · unfold decSymbol
    split
    · exact h.raise _
    · next hr => exact sat_tree_decBits _ _ { h with } (h.closed.root.resolve_left hr)
  · exact HasTree.inv { h with } trivial

theorem sat_tree_decPopMicro (h : TreeInv s) (hp : s.phase = .decPop) : Sat False TreeInv (decPopMicro s) := by
  obtain ⟨ht, hcur⟩ : s.tv = true ∧ s.cur.toNat < s.nodes.length := by simpa [Stands, hp] using h.stands
  refine sat_inPop h (fun b rest => ?_) (fun _ => (h.popped _ _).raise _) fun _ => (h.popped _ _).raise _
  exact sat_tree_decBits 8 _ { h.hasTree ht with } hcur

theorem sat_tree_decPushMicro {sym : Byte} (h : TreeInv s) (hp : s.phase = .decPush sym) :
    Sat False TreeInv (decPushMicro sym s) := by
  have ht : s.tv = true := by simpa [Stands, hp] using h.stands
  exact sat_outPush h (sat_tree_decNext { h.hasTree ht with }) (h.answered.raise _)

theorem sat_tree_micro (h : TreeInv s) : Sat False TreeInv (micro s) := by
  cases hp : s.phase with
  | idle => rw [micro_idle hp]; exact h
  | profPop => rw [micro_profPop hp]; exact sat_tree_profMicro h
  | serPush todo => rw [micro_serPush hp]; exact sat_tree_serMicro h hp
  | desRoot => rw [micro_desRoot hp]; exact sat_tree_desRootMicro h hp
  | desTag stack => rw [micro_desTag hp]; exact sat_tree_desTagMicro h hp
  | desSym stack => rw [micro_desSym hp]; exact sat_tree_desSymMicro h hp
  | encPop => rw [micro_encPop hp]; exact sat_tree_encPopMicro h
  | encPush v rest => rw [micro_encPush hp]; exact sat_tree_encPushMicro h v rest
  | encFlush => rw [micro_encFlush hp]; exact sat_tree_encFlushMicro h
  | decPop => rw [micro_decPop hp]; exact sat_tree_decPopMicro h hp
  | decPush sym => rw [micro_decPush hp]; exact sat_tree_decPushMicro h hp

/-! ### The commands -/

theorem sat_tree_goOn (h : TreeInv s) : Sat False TreeInv (goOn s) := sat_goOn (fun _ => sat_tree_micro) h

theorem sat_tree_execBuild (h : TreeInv s) : Sat False TreeInv (execBuild s) := by
  refine sat_issued (fun _ => h.respond _ _) fun hc => ?_
  have hi : (s.accept .build).built.phase = .idle := (built_phase _).trans (idle_of_checks hc rfl).1
  obtain ⟨t, -, hshape, holds, -⟩ := built_holds (s.accept .build)
  have built : TreeInv (s.accept .build).built :=
    ⟨built_nodes_length _, fun _ => tableHoldsOneTree_iff.2 ⟨t, hshape, holds⟩, by simp [Stands, hi]⟩
  exact built.respond _ _

theorem sat_tree_execGen (h : TreeInv s) : Sat False TreeInv (exec .gen s) := by
  rcases hc : checks .gen s with _ | resp
  · obtain ⟨_, _, hs, _⟩ := idle_of_checks hc rfl
    obtain ⟨⟨_, ht⟩, _⟩ : (s.err = false ∧ s.tv = true) ∧ s.bv = false := by simpa [seqOk] using hs
    obtain ⟨t, -, holds⟩ := tableHoldsOneTree_iff.1 (h.tree ht)
    obtain ⟨walked, e⟩ := exec_gen_of_held hc holds.held (holds.depth_le h.fits)
    rw [e]
    exact { h with }
  · rw [exec_of_fail hc]
    exact h.respond _ _

theorem sat_tree_execTser (h : TreeInv s) : Sat False TreeInv (execTser s) := by
  refine sat_issued (fun _ => h.respond _ _) fun hc => ?_
  obtain ⟨_, _, hs, _⟩ := idle_of_checks hc rfl
  obtain ⟨-, ht⟩ : s.err = false ∧ s.tv = true := by simpa [seqOk] using hs
  refine sat_tree_goOn (tree_serGoOn (h.accept _) ht fun i hi => ?_)
  obtain ⟨hr, rfl⟩ := mem_serChild.1 hi
  exact (h.hasTree ht).closed.root.resolve_left hr

/-- TDES starts with an empty table, and TDES 0 holds the empty tree (R177). -/
theorem tree_desStart (ht : s.tv = false) (shape : BitVec 2) : TreeInv (s.desStart shape) := by
  unfold State.desStart
  dsimp only
  split
  · exact ⟨Nat.zero_le _, fun _ => tableHoldsOneTree_iff.2 ⟨.empty, rfl, rfl, .refl _⟩, trivial⟩
  split
  · exact treeInv_of_no_tree ht (Nat.zero_le _) ⟨ht, rfl⟩
  · exact treeInv_of_no_tree ht (Nat.zero_le _) ⟨ht, [], .root, .refl _⟩

theorem sat_tree_execTdes (h : TreeInv s) (shape : BitVec 2) : Sat False TreeInv (execTdes shape s) := by
  refine sat_issued (fun _ => h.respond _ _) fun hc => ?_
  obtain ⟨_, _, hs, _⟩ := idle_of_checks hc rfl
  obtain ⟨-, ht⟩ : (s.err = false ∧ s.fv = false) ∧ s.tv = false := by simpa [seqOk] using hs
  exact sat_tree_goOn (tree_desStart (s := s.accept (.tdes shape)) ht shape)

theorem sat_tree_execDec (h : TreeInv s) (expected : Data) : Sat False TreeInv (execDec expected s) := by
  refine sat_issued (fun _ => h.respond _ _) fun hc => ?_
  obtain ⟨_, _, hs, _⟩ := idle_of_checks hc rfl
  obtain ⟨⟨_, ht⟩, _⟩ : (s.err = false ∧ s.tv = true) ∧ s.fin = false := by simpa [seqOk] using hs
  exact sat_andThen (sat_tree_decNext { h.hasTree ht with }) fun _ => sat_tree_goOn

theorem treeInv_cleared (s : State) : TreeInv s.cleared := ⟨Nat.zero_le _, nofun, trivial⟩

theorem sat_tree_exec (h : TreeInv s) (i : Instr) : Sat False TreeInv (exec i s) := by
  have read {i : Instr} (hi : isRead i = true) : Sat False TreeInv (exec i s) := by
    obtain ⟨resp, v, e⟩ := exec_read hi s
    exact e ▸ h.respond resp v
  have issue {i : Instr} {rule : State → Result} (accepted : Sat False TreeInv (rule (s.accept i))) :
      Sat False TreeInv (issued i s rule) :=
    sat_issued (fun _ => h.respond _ _) fun _ => accepted
  cases i with
  | clr =>
    rw [exec, execClr]
    exact issue { treeInv_cleared s with }
  | prof =>
    rw [exec, execProf]
    exact issue (sat_tree_goOn { h with stands := trivial })
  | ldf sym count =>
    rw [exec, execLdf]
    exact issue { h with }
  | build => exact sat_tree_execBuild h
  | gen => exact sat_tree_execGen h
  | tser => exact sat_tree_execTser h
  | tdes shape => exact sat_tree_execTdes h shape
  | enc =>
    rw [exec, execEnc]
    exact issue (sat_tree_goOn { h with stands := trivial })
  | dec expected => exact sat_tree_execDec h expected
  | rdr reg => exact read rfl
  | rdf sym => exact read rfl
  | rdn sel idx => exact read rfl
  | rdc sel sym => exact read rfl

theorem sat_tree_step (h : TreeInv s) : Sat False TreeInv (step s) :=
  sat_step (fun _ => sat_tree_micro { h with })
    (fun _ _ rest i _ _ => sat_tree_exec (s := { s with moves := rest }) { h with } i) (fun _ => { h with })
    (fun _ _ _ _ => { h with }) fun _ _ => treeInv_cleared _

/-- The tree's invariant holds of every state of every run, under any host (R31). -/
theorem treeInv_of_reachable (h : Reachable s) : TreeInv s := by
  induction h with
  | reset => exact treeInv_cleared State.reset
  | step s t _ e ih => exact (sat_tree_step ih).of_eq_next e
  | host s inq outq moves answers sinkThen pace _ ih => exact { ih with }

/-- Settles O60: the tree's invariant holds on every run, and from a state that meets it every step has a next state. -/
theorem noRunLosesTheTree : Obligations.NoRunLosesTheTree := by
  intro s hs
  have h := treeInv_of_reachable hs
  obtain ⟨t, ht, -⟩ := (sat_tree_step h).exists_next
  exact ⟨h.tree, t, ht⟩

end Sys2Proof.Safety

/-! SUPPORT. A running command stands at an InPop or at an OutPush, and its micro-step is that stream access with what follows
it (00_scope.md R10, 20_memory.md R67, R68, R74). -/

namespace Sys2Proof.Machine

variable {s : State}

/-- The core stands at an InPop. -/
def AtPop (s : State) : Prop :=
  s.phase ∈ [.profPop, .desRoot, .encPop, .decPop] ∨ ∃ stack, s.phase = .desTag stack ∨ s.phase = .desSym stack

/-- The core stands at an OutPush; TSER at a node does so where the entry is defined. -/
def AtPush (s : State) : Prop :=
  (∃ b rest, s.phase = .serPush (.sym b :: rest)) ∨
    (∃ i n rest, s.phase = .serPush (.node i :: rest) ∧ nodeAt s.nodes i = some n) ∨
    (∃ v rest, s.phase = .encPush v rest) ∨ s.phase = .encFlush ∨ (∃ b, s.phase = .decPush b)

theorem getByte_eq_inPop (s : State) (k : Byte → State → Result) : ∃ k', getByte s k = inPop s k' := ⟨_, rfl⟩

theorem micro_eq_inPop (h : AtPop s) : ∃ k, micro s = inPop s k := by
  rcases h with h | ⟨stack, h | h⟩
  · simp only [List.mem_cons, List.not_mem_nil, or_false] at h
    rcases h with h | h | h | h
    · exact ⟨_, micro_profPop h⟩
    · rw [micro_desRoot h]
      exact getByte_eq_inPop s _
    · exact ⟨_, micro_encPop h⟩
    · exact ⟨_, micro_decPop h⟩
  · rw [micro_desTag h]
    exact getByte_eq_inPop s _
  · rw [micro_desSym h]
    exact getByte_eq_inPop s _

theorem serMicro_node_eq_outPush {i : NodeIdx} {n : Node} (hn : nodeAt s.nodes i = some n) (rest : List SerWork) :
    ∃ b k, serMicro (.node i :: rest) s = outPush b s k := by
  cases n with
  | leaf sym w => exact ⟨_, _, by rw [serMicro, hn]⟩
  | internal w l r => exact ⟨_, _, by rw [serMicro, hn]⟩

theorem micro_eq_outPush (h : AtPush s) : ∃ b k, micro s = outPush b s k := by
  rcases h with ⟨b, rest, h⟩ | ⟨i, n, rest, h, hn⟩ | ⟨v, rest, h⟩ | h | ⟨b, h⟩
  · rw [micro_serPush h, serMicro]
    exact ⟨_, _, rfl⟩
  · rw [micro_serPush h]
    exact serMicro_node_eq_outPush hn rest
  · exact ⟨_, _, micro_encPush h⟩
  · exact ⟨_, _, micro_encFlush h⟩
  · exact ⟨_, _, micro_decPush h⟩

/-- Settles O48: at every InPop a FAIL item raises the error before what follows the pop. -/
theorem sourceFailureRaisesIo1 : Obligations.SourceFailureRaisesIo1 := by
  intro s rest hm hq hp
  obtain ⟨k, e⟩ := micro_eq_inPop hp
  rw [step_of_no_move hm, e, inPop_fail hq]
  rfl

/-- Settles O49: at every OutPush a fail answer raises the error in place of the delivery. -/
theorem sinkFailureRaisesIo2 : Obligations.SinkFailureRaisesIo2 := by
  intro s hm ha hp
  have fails : s.nextAnswer = some .fail := by
    rcases ha with ⟨answers, h⟩ | ⟨h, hthen⟩
    · simp [State.nextAnswer, h]
    · simp [State.nextAnswer, h, hthen]
  obtain ⟨b, k, e⟩ := micro_eq_outPush hp
  rw [step_of_no_move hm, e, outPush_fail fails]
  rfl

/-- Settles O50: an InPop on an empty INQ and an OutPush without an answer leave the state as it is. -/
theorem waitingChangesNothing : Obligations.WaitingChangesNothing := by
  intro s hm h
  rw [step_of_no_move hm]
  rcases h with ⟨hq, hp⟩ | ⟨ha, hthen, hp⟩
  · obtain ⟨k, e⟩ := micro_eq_inPop hp
    rw [e, inPop_nil hq]
  · have silent : s.nextAnswer = none := by simp [State.nextAnswer, ha, hthen]
    obtain ⟨b, k, e⟩ := micro_eq_outPush hp
    rw [e, outPush_waits silent]

end Sys2Proof.Machine

/-! SUPPORT. The core takes from the head of INQ and adds at the tail of OUTQ, and does nothing else to the two
(20_memory.md R70). -/

namespace Sys2Proof.Machine

variable {s u : State}

/-- INQ of the second state is what is left of the first's, and OUTQ of the first stands first in the second's (R70). -/
def InOrder (s t : State) : Prop := t.inq <:+ s.inq ∧ s.outq <+: t.outq

theorem InOrder.refl (s : State) : InOrder s s := ⟨List.suffix_rfl, List.prefix_rfl⟩

theorem InOrder.popped (h : InOrder s u) {it : Item} {rest : List Item} (hq : u.inq = it :: rest) :
    InOrder s (u.popped it rest) :=
  ⟨(hq ▸ List.suffix_cons it rest : rest <:+ u.inq).trans h.1, h.2⟩

theorem InOrder.pushed (h : InOrder s u) (b : Byte) : InOrder s (u.pushed b) :=
  ⟨h.1, h.2.trans (List.prefix_append u.outq [b])⟩

theorem InOrder.sat_inPop (h : InOrder s u) {k : Option Byte → State → Result}
    (goes : ∀ item v, InOrder s v → Sat True (InOrder s) (k item v)) : Sat True (InOrder s) (inPop u k) := by
  rcases inPop_cases u k with ⟨_, e⟩ | ⟨b, rest, hq, e⟩ | ⟨rest, hq, e⟩ | ⟨rest, hq, e⟩ <;> rw [e]
  · exact h
  · exact goes _ _ (h.popped hq)
  · exact goes _ _ (h.popped hq)
  · exact h.popped hq

theorem InOrder.sat_getByte (h : InOrder s u) {k : Byte → State → Result}
    (goes : ∀ b v, InOrder s v → Sat True (InOrder s) (k b v)) : Sat True (InOrder s) (getByte u k) :=
  h.sat_inPop fun item v hv => by
    cases item with
    | none => exact hv
    | some b => exact goes b v hv

theorem InOrder.sat_outPush (h : InOrder s u) {b : Byte} {k : State → Result}
    (goes : ∀ v, InOrder s v → Sat True (InOrder s) (k v)) : Sat True (InOrder s) (outPush b u k) :=
  Machine.sat_outPush h (goes _ (h.pushed b)) h

theorem InOrder.serGoOn (h : InOrder s u) (todo : List SerWork) : InOrder s (serGoOn todo u) := by
  cases todo <;> exact h

theorem InOrder.desReturn (h : InOrder s u) (r : NodeIdx) (stack : List DesFrame) : InOrder s (desReturn r stack u) := by
  induction stack generalizing r u with
  | nil => exact h
  | cons f stack ih =>
    cases f with
    | lone => exact h
    | left i => exact h
    | right i => exact ih (u := u.modifyNode i _) h i

theorem InOrder.putBits (h : InOrder s u) (bits : List Bool) : InOrder s (putBits bits u) := by
  rw [putBits_frame]
  exact h

theorem InOrder.sat_decBits (h : InOrder s u) (n : Nat) : Sat True (InOrder s) (decBits n u) :=
  sat_of_forall fun t e => by
    obtain ⟨_, _, _, rfl | ⟨_, rfl⟩ | rfl⟩ := decBits_cases n u t e <;> exact h

theorem InOrder.sat_decNext (h : InOrder s u) : Sat True (InOrder s) (decNext u) := by
  unfold decNext decSymbol
  split
  · split
    · exact h
    · exact sat_decBits (u := { u with cur := u.root }) h _
  · exact h

theorem InOrder.sat_serMicro (h : InOrder s u) (todo : List SerWork) : Sat True (InOrder s) (serMicro todo u) := by
  match todo with
  | [] => exact h
  | .sym b :: rest =>
    rw [serMicro]
    exact h.sat_outPush fun _ hv => hv.serGoOn _
  | .node i :: rest =>
    rw [serMicro]
    split
    · trivial
    · exact h.sat_outPush fun _ hv => hv.serGoOn _
    · exact h.sat_outPush fun _ hv => hv.serGoOn _

theorem InOrder.sat_micro (h : InOrder s u) : Sat True (InOrder s) (micro u) := by
  simp only [micro]
  cases u.phase with
  | idle => exact h
  | profPop =>
    refine h.sat_inPop fun item v hv => ?_
    cases item with
    | none => exact hv
    | some b => dsimp only; split <;> exact hv
  | serPush todo => exact h.sat_serMicro todo
  | desRoot =>
    refine h.sat_getByte fun b v hv => ?_
    split <;> exact hv
  | desTag stack =>
    refine h.sat_getByte fun b v hv => ?_
    split_ifs <;> exact hv
  | desSym stack =>
    exact h.sat_getByte fun b v hv => desReturn (u := { v.allocated (.leaf b 0) with nsym := v.nsym + 1 }) hv _ stack
  | encPop =>
    refine h.sat_inPop fun item v hv => ?_
    cases item with
    | none => dsimp only; split <;> exact hv
    | some b =>
      dsimp only
      split
      · exact hv
      · exact hv.putBits _
  | encPush v rest => exact h.sat_outPush fun v hv => putBits (u := v.emptyAcc) hv rest
  | encFlush => exact h.sat_outPush fun _ hv => hv
  | decPop =>
    refine h.sat_inPop fun item v hv => ?_
    cases item with
    | none => exact hv
    | some b => exact sat_decBits (u := { v with dbyte := b, dbits := 8 }) hv 8
  | decPush sym => exact h.sat_outPush fun v hv => sat_decNext (u := { v with decoded := v.decoded + 1 }) hv

theorem InOrder.sat_goOn (h : InOrder s u) : Sat True (InOrder s) (goOn u) := Machine.sat_goOn (fun _ => sat_micro) h

theorem InOrder.built (h : InOrder s u) : InOrder s u.built := by
  rw [built_frame]
  exact h

theorem InOrder.desStart (h : InOrder s u) (shape : BitVec 2) : InOrder s (u.desStart shape) := by
  unfold State.desStart
  dsimp only
  split_ifs <;> exact h

/-- Every command, CLR among them (R245). -/
theorem InOrder.sat_exec (h : InOrder s u) (i : Instr) : Sat True (InOrder s) (exec i u) := by
  have read {i : Instr} (hi : isRead i = true) : Sat True (InOrder s) (exec i u) := by
    obtain ⟨resp, v, e⟩ := exec_read hi u
    exact e ▸ h
  have issue {i : Instr} {rule : State → Result} (accepted : Sat True (InOrder s) (rule (u.accept i))) :
      Sat True (InOrder s) (issued i u rule) :=
    sat_issued (fun _ => h) fun _ => accepted
  cases i with
  | clr =>
    rw [exec, execClr]
    exact issue h
  | prof =>
    rw [exec, execProf]
    exact issue (sat_goOn (u := { u.accept .prof with phase := .profPop }) h)
  | ldf sym count =>
    rw [exec, execLdf]
    exact issue h
  | build =>
    rw [exec, execBuild]
    exact issue (built (u := u.accept .build) h)
  | gen =>
    rw [exec, execGen]
    refine issue ?_
    split
    · exact h
    · split
      · exact h
      · trivial
  | tser =>
    rw [exec, execTser]
    exact issue (sat_goOn (serGoOn (u := u.accept .tser) h _))
  | tdes shape =>
    rw [exec, execTdes]
    exact issue (sat_goOn (desStart (u := u.accept (.tdes shape)) h shape))
  | enc =>
    rw [exec, execEnc]
    exact issue (sat_goOn (u := { (u.accept .enc).emptyAcc with phase := .encPop }) h)
  | dec expected =>
    rw [exec, execDec]
    exact issue (sat_andThen (sat_decNext (u := { u.accept (.dec expected) with
      expected := expected, decoded := 0, dbyte := 0, dbits := 0, cur := Config.nil }) h) fun _ => sat_goOn)
  | rdr reg => exact read rfl
  | rdf sym => exact read rfl
  | rdn sel idx => exact read rfl
  | rdc sel sym => exact read rfl

theorem InOrder.sat_issueWord (h : InOrder s u) (cw : Word) (wdata : Data) :
    Sat True (InOrder s) (issueWord cw wdata u) := by
  rcases issueWord_cases cw wdata u with ⟨_, _, e⟩ | ⟨i, _, e⟩ <;> rw [e]
  · exact h
  · exact h.sat_exec i

/-- Every move but a push and a take, which are the host's own accesses to the streams (R10 c, d). -/
theorem InOrder.sat_takeMove (h : InOrder s u) {m : Move} (hpush : ∀ it, m ≠ .push it) (htake : m ≠ .take) :
    Sat True (InOrder s) (takeMove m u) := by
  cases m with
  | issue cw wdata => exact h.sat_issueWord cw wdata
  | core => exact h.sat_micro
  | push it => exact (hpush it rfl).elim
  | take => exact (htake rfl).elim
  | answer a => exact h
  | reset => exact h

/-- Settles O55: the core and every host move but push and take keep both orders, a push leaves OUTQ alone and a take INQ. -/
theorem streamsKeepTheirOrder : Obligations.StreamsKeepTheirOrder := by
  intro s t e
  have both (h : InOrder s t) : ((∀ it rest, s.moves ≠ .push it :: rest) → t.inq <:+ s.inq) ∧
      ((∀ rest, s.moves ≠ .take :: rest) → s.outq <+: t.outq) := ⟨fun _ => h.1, fun _ => h.2⟩
  rcases step_cases s with ⟨_, hstep⟩ | ⟨m, rest, hm, hstep⟩ <;> rw [hstep] at e
  · exact both ((InOrder.sat_micro (.refl s)).of_eq_next e)
  · by_cases hpush : ∃ it, m = .push it
    · obtain ⟨it, rfl⟩ := hpush
      cases e
      exact ⟨fun no => (no it rest hm).elim, fun _ => List.prefix_rfl⟩
    by_cases htake : m = .take
    · subst htake
      cases e
      exact ⟨fun _ => List.suffix_rfl, fun no => (no rest hm).elim⟩
    have start : InOrder s { s with moves := rest } := .refl s
    exact both ((start.sat_takeMove (fun it hit => hpush ⟨it, hit⟩) htake).of_eq_next e)

end Sys2Proof.Machine

/-! SUPPORT. The commands that may run once there is a tree read the tables, and only GEN, once, writes one (20_memory.md
R73). -/

namespace Sys2Proof.Machine

open Sys2Proof.Safety

variable {s u : State}

/-- Is this a place of PROF or TDES, whose micro-steps write FREQ and NODE (R120, R177)? -/
def Phase.writesTables : Phase → Bool
  | .profPop | .desRoot | .desTag _ | .desSym _ => true
  | .idle | .serPush _ | .encPop | .encPush _ _ | .encFlush | .decPop | .decPush _ => false

/-- The second state has the first's tables, CODE if BV = 1 in the first, and no command runs in it that writes them. -/
structure TablesKept (s t : State) : Prop where
  freq : t.freq = s.freq
  nodes : t.nodes = s.nodes
  root : t.root = s.root
  shape : t.shape = s.shape
  code : s.bv = true → t.code = s.code
  phase : t.phase.writesTables = false

/-- PROF and TDES were accepted with TV = 0 (R97). -/
theorem writesTables_eq_false_of_tv (hi : Inv s) (ht : s.tv = true) : s.phase.writesTables = false := by
  have hph := (inv_iff.1 hi).2
  cases hp : s.phase with
  | profPop | desRoot | desTag _ | desSym _ => simp [phaseOk, hp, ht] at hph
  | _ => rfl

theorem TablesKept.of_tv (hi : Inv s) (ht : s.tv = true) : TablesKept s s :=
  ⟨rfl, rfl, rfl, rfl, fun _ => rfl, writesTables_eq_false_of_tv hi ht⟩

theorem TablesKept.finish (h : TablesKept s u) : TablesKept s u.finish := { h with phase := rfl }

theorem TablesKept.raise (h : TablesKept s u) (e : Err) : TablesKept s (u.raise e) := { h with phase := rfl }

theorem TablesKept.popped (h : TablesKept s u) (it : Item) (rest : List Item) : TablesKept s (u.popped it rest) :=
  { h with }

theorem TablesKept.sat_outPush (h : TablesKept s u) {b : Byte} {k : State → Result}
    (goes : ∀ v, TablesKept s v → Sat True (TablesKept s) (k v)) : Sat True (TablesKept s) (outPush b u k) :=
  Machine.sat_outPush h (goes _ { h with }) { h with phase := rfl }

theorem TablesKept.serGoOn (h : TablesKept s u) (todo : List SerWork) : TablesKept s (serGoOn todo u) := by
  cases todo with
  | nil => exact h.finish
  | cons w todo => exact { h with phase := rfl }

theorem TablesKept.sat_serMicro (h : TablesKept s u) (todo : List SerWork) :
    Sat True (TablesKept s) (serMicro todo u) := by
  match todo with
  | [] => exact h.finish
  | .sym b :: rest =>
    rw [serMicro]
    exact h.sat_outPush fun _ hv => hv.serGoOn _
  | .node i :: rest =>
    rw [serMicro]
    split
    · trivial
    · exact h.sat_outPush fun _ hv => hv.serGoOn _
    · exact h.sat_outPush fun _ hv => hv.serGoOn _

theorem TablesKept.putBits (h : TablesKept s u) (bits : List Bool) : TablesKept s (putBits bits u) := by
  rcases putBits_phase bits u with ⟨v, rest, _, hp, _⟩ | hp <;> rw [putBits_frame, hp] <;> exact { h with phase := rfl }

theorem TablesKept.encDone (h : TablesKept s u) : TablesKept s u.encDone := { h with phase := rfl }

theorem TablesKept.sat_decBits (h : TablesKept s u) (n : Nat) : Sat True (TablesKept s) (decBits n u) :=
  sat_of_forall fun t e => by
    obtain ⟨_, _, _, rfl | ⟨_, rfl⟩ | rfl⟩ := decBits_cases n u t e <;> exact { h with phase := rfl }

theorem TablesKept.sat_decNext (h : TablesKept s u) : Sat True (TablesKept s) (decNext u) := by
  unfold decNext decSymbol
  split
  · split
    · exact h.raise _
    · exact sat_decBits (u := { u with cur := u.root }) { h with } _
  · exact { h with phase := rfl }

theorem TablesKept.sat_micro (h : TablesKept s u) : Sat True (TablesKept s) (micro u) := by
  cases hp : u.phase with
  | idle => rw [micro_idle hp]; exact h
  | profPop | desRoot | desTag _ | desSym _ => simpa [hp, Phase.writesTables] using h.phase
  | serPush todo => rw [micro_serPush hp]; exact h.sat_serMicro todo
  | encPop =>
    rw [micro_encPop hp]
    refine sat_inPop h (fun b rest => ?_) (fun rest => ?_) fun _ => (h.popped _ _).raise _ <;> dsimp only <;> split
    · exact (h.popped _ _).raise _
    · exact (h.popped _ rest).putBits _
    · exact (h.popped _ rest).encDone
    · exact { h with phase := rfl }
  | encPush v rest =>
    rw [micro_encPush hp]
    exact h.sat_outPush fun v hv => putBits (u := v.emptyAcc) { hv with } rest
  | encFlush => rw [micro_encFlush hp]; exact h.sat_outPush fun _ hv => hv.encDone
  | decPop =>
    rw [micro_decPop hp]
    exact sat_inPop h
      (fun b rest => sat_decBits (u := { u.popped (.byte b) rest with dbyte := b, dbits := 8 }) { h with } 8)
      (fun _ => (h.popped _ _).raise _) fun _ => (h.popped _ _).raise _
  | decPush sym =>
    rw [micro_decPush hp]
    exact h.sat_outPush fun v hv => sat_decNext (u := { v with decoded := v.decoded + 1 }) { hv with }

theorem TablesKept.sat_goOn (h : TablesKept s u) : Sat True (TablesKept s) (goOn u) :=
  Machine.sat_goOn (fun _ => sat_micro) h

/-- With TV = 1 the sequence condition rejects PROF, LDF, BUILD and TDES, and with BV = 1 GEN (R97). -/
theorem TablesKept.sat_exec (h : TablesKept s u) (ht : u.tv = true) (hb : u.bv = s.bv) {i : Instr}
    (hi : i = .clr → u.busy = true) : Sat True (TablesKept s) (exec i u) := by
  rcases hc : checks i u with _ | resp
  case some => exact exec_of_fail hc ▸ { h with }
  obtain ⟨_, idle, hseq, _⟩ := checks_eq_none.1 hc
  have read {i : Instr} (hi : isRead i = true) : Sat True (TablesKept s) (exec i u) := by
    obtain ⟨resp, v, e⟩ := exec_read hi u
    exact e ▸ { h with }
  cases i with
  | clr => simp [hi rfl, mayOverlap] at idle
  | prof | ldf _ _ | build | tdes _ => simp [seqOk, ht] at hseq
  | gen =>
    have hbook : s.bv = false := by
      obtain ⟨_, hub⟩ : u.err = false ∧ u.bv = false := by simpa [seqOk, ht] using hseq
      exact hb.symm.trans hub
    have generated (code : Vector Code 256) (walked : Bool) :
        TablesKept s (((u.accept .gen).generated code walked).respond respOk 0) :=
      { h with code := fun e => absurd (hbook.symm.trans e) (by decide) }
    rw [exec, execGen, issued_of_pass hc]
    split
    · exact generated _ _
    · split
      · exact generated _ _
      · trivial
  | tser =>
    rw [exec, execTser, issued_of_pass hc]
    exact sat_goOn (serGoOn (u := u.accept .tser) { h with } _)
  | enc =>
    rw [exec, execEnc, issued_of_pass hc]
    exact sat_goOn { h with phase := rfl }
  | dec expected =>
    rw [exec, execDec, issued_of_pass hc]
    exact sat_andThen (sat_decNext { h with }) fun _ => sat_goOn
  | rdr reg => exact read rfl
  | rdf sym => exact read rfl
  | rdn sel idx => exact read rfl
  | rdc sel sym => exact read rfl

theorem TablesKept.sat_step (hi : Inv s) (ht : s.tv = true) (hs : startsOperation s = false) :
    Sat True (TablesKept s) (step s) := by
  have h := of_tv hi ht
  refine Machine.sat_step (fun _ => sat_micro { h with }) (fun cw wdata rest i hm hd => ?_) (fun _ => { h with })
    (fun _ _ _ _ => { h with }) fun rest hm => (not_reset_of_startsOperation hs hm).elim
  exact sat_exec (u := { s with moves := rest }) { h with } ht rfl fun hi => busy_of_issue_clr (s := s) hs hm (hi ▸ hd)

/-- Settles O54: with TV = 1 the step keeps the tables, and BV = 1 implies TV = 1. -/
theorem tablesAreFrozenOnceUsed : Obligations.TablesAreFrozenOnceUsed := by
  intro s t hi e hs
  have kept (ht : s.tv = true) : TablesKept s t := (TablesKept.sat_step hi ht hs).of_eq_next e
  exact ⟨fun ht => have k := kept ht; ⟨k.freq, k.nodes, k.root, k.shape⟩,
    fun hb => (kept ((inv_iff.1 hi).1.book hb)).code hb⟩

end Sys2Proof.Machine

/-! SUPPORT. The decoder and the encoder are inverse to each other (30_encoding.md R90 to R98). -/

namespace Sys2Proof

variable {cw : Word} {wdata : Data} {i : Instr} {r r' : Row}

/-! ### The rows of the opcode map (R94) -/

/-- Two rows whose patterns agree where both have a mask bit are one row. -/
theorem eq_of_patterns_agree : ∀ r ∈ opcodeMap, ∀ r' ∈ opcodeMap,
    r.pattern &&& r'.mask = r'.pattern &&& r.mask → r = r' := by decide

theorem Row.selects_iff : r.selects cw = true ↔ cw &&& r.mask = r.pattern := by simp [Row.selects]

/-- Settles O5: two rows that select one word have patterns that agree where both have a mask bit. -/
theorem opcodeRowsAreDisjoint : Obligations.OpcodeRowsAreDisjoint := by
  intro cw r r' hr hr' hs hs'
  rw [Row.selects_iff] at hs hs'
  refine eq_of_patterns_agree r hr r' hr' ?_
  rw [← hs, ← hs', BitVec.and_assoc, BitVec.and_assoc, BitVec.and_comm r.mask]

/-- A row that selects the word is the row the decoder finds. -/
theorem decode_of_selects (hr : r ∈ opcodeMap) (hs : r.selects cw = true) (wdata : Data) :
    decode cw wdata = assembleOperands r.op cw wdata := by
  obtain ⟨r', hfind⟩ := Option.isSome_iff_exists.1 (List.find?_isSome (p := (Row.selects · cw)).2 ⟨r, hr, hs⟩)
  have hrow : r' = r :=
    opcodeRowsAreDisjoint cw r' r (List.mem_of_find?_eq_some hfind) hr (List.find?_some (p := (Row.selects · cw)) hfind) hs
  simp [decode, hfind, hrow]

/-- How many low bits of CW a row leaves to the operands (R94). -/
def Op.openBits : Op → Nat
  | .clr | .prof | .build | .gen | .tser | .enc | .dec => 0
  | .tdes => 2
  | .ldf | .rdr | .rdf => 16
  | .rdn => 17
  | .rdc => 19

/-- OPC of an operation (R94). -/
def Op.opcode : Op → Byte
  | .clr => 0x01
  | .prof => 0x10
  | .ldf => 0x11
  | .build => 0x20
  | .gen => 0x30
  | .tser => 0x40
  | .tdes => 0x41
  | .enc => 0x50
  | .dec => 0x51
  | .rdr => 0x60
  | .rdf => 0x61
  | .rdn => 0x62
  | .rdc => 0x63

theorem opcode_op (i : Instr) : i.op.opcode = i.opcode := by cases i <;> rfl

theorem row_of_mem : ∀ r ∈ opcodeMap,
    r.mask = BitVec.allOnes 32 <<< r.op.openBits ∧ r.pattern.toNat = r.op.opcode.toNat * 2 ^ 24 := by decide

/-- A row selects the words with its OPC that are 0 from the open bits up to OPC. -/
theorem Row.selects_iff_toNat (hr : r ∈ opcodeMap) : r.selects cw = true ↔
    cw.toNat / 2 ^ r.op.openBits * 2 ^ r.op.openBits = r.op.opcode.toNat * 2 ^ 24 := by
  obtain ⟨hmask, hpattern⟩ := row_of_mem r hr
  have small : cw.toNat / 2 ^ r.op.openBits * 2 ^ r.op.openBits < 2 ^ 32 :=
    (Nat.div_mul_le_self _ _).trans_lt cw.isLt
  rw [selects_iff, hmask, ← BitVec.shiftLeft_ushiftRight, ← BitVec.toNat_inj, hpattern, BitVec.toNat_shiftLeft,
    BitVec.toNat_ushiftRight, Nat.shiftLeft_eq, Nat.shiftRight_eq_div_pow, Nat.mod_eq_of_lt small]

/-! ### The fields of a word (R90) -/

theorem toNat_selOf (cw : Word) : (selOf cw).toNat = cw.toNat / 65536 % 256 := by
  simp [selOf, BitVec.extractLsb'_toNat, Nat.shiftRight_eq_div_pow]

theorem toNat_idxOf (cw : Word) : (idxOf cw).toNat = cw.toNat % 65536 := by
  simp [idxOf, BitVec.extractLsb'_toNat]

theorem toNat_shapeOf (cw : Word) : (shapeOf cw).toNat = cw.toNat % 4 := by
  simp [shapeOf, BitVec.extractLsb'_toNat]

theorem toNat_word (i : Instr) :
    i.word.toNat = (i.opcode.toNat * 256 + i.sel.toNat) * 65536 + i.idx.toNat := by
  have hsel : i.sel.toNat < 2 ^ 8 := i.sel.isLt
  have hidx : i.idx.toNat < 2 ^ 16 := i.idx.isLt
  rw [Instr.word, BitVec.toNat_append, BitVec.toNat_append, ← Nat.shiftLeft_add_eq_or_of_lt hsel,
    ← Nat.shiftLeft_add_eq_or_of_lt hidx, Nat.shiftLeft_eq, Nat.shiftLeft_eq]

/-- A word is a command's when its three fields are. -/
theorem word_eq_iff : i.word = cw ↔
    cw.extractLsb' 24 8 = i.opcode ∧ selOf cw = i.sel ∧ idxOf cw = i.idx := by
  constructor
  · rintro rfl
    exact ⟨opc_word i, sel_word i, idx_word i⟩
  · rintro ⟨hopc, hsel, hidx⟩
    apply BitVec.eq_of_toNat_eq
    rw [toNat_word, ← hopc, ← hsel, ← hidx, toNat_selOf, toNat_idxOf, BitVec.extractLsb'_toNat,
      Nat.shiftRight_eq_div_pow]
    have := cw.isLt
    omega

/-! ### What decodes, and to what -/

/-- Is WDATA an operand (R91)? -/
def Instr.readsWdata : Instr → Bool
  | .ldf _ _ | .dec _ => true
  | .clr | .prof | .build | .gen | .tser | .tdes _ | .enc | .rdr _ | .rdf _ | .rdn _ _ | .rdc _ _ => false

/-- The word of a legal command is selected by a row of the command's own operation. -/
theorem exists_row_of_wf (hw : i.wf = true) : ∃ r ∈ opcodeMap, r.op = i.op ∧ r.selects i.word = true := by
  have own : Laws.OwnRow.Statement i := by
    cases i with
    | clr => exact Laws.OwnRow.clr
    | prof => exact Laws.OwnRow.prof
    | ldf sym count => exact Laws.OwnRow.ldf sym count
    | build => exact Laws.OwnRow.build
    | gen => exact Laws.OwnRow.gen
    | tser => exact Laws.OwnRow.tser
    | tdes shape => exact Laws.OwnRow.tdes shape
    | enc => exact Laws.OwnRow.enc
    | dec expected => exact Laws.OwnRow.dec expected
    | rdr reg => exact Laws.OwnRow.rdr reg
    | rdf sym => exact Laws.OwnRow.rdf sym
    | rdn sel idx => exact Laws.OwnRow.rdn sel idx
    | rdc sel sym => exact Laws.OwnRow.rdc sel sym
  obtain ⟨r, hr, hs⟩ := own hw
  exact ⟨r, List.mem_of_find?_eq_some hr, by simpa using List.find?_some hr, hs⟩

theorem shapeOf_word_tdes (shape : BitVec 2) : shapeOf (Instr.tdes shape).word = shape := by
  apply BitVec.eq_of_toNat_eq
  have := shape.isLt
  rw [toNat_shapeOf, toNat_word]
  simp [Instr.idx]
  omega

/-- The operands of a legal command, found in its word and in the WDATA it reads. -/
theorem assembleOperands_word (hw : i.wf = true) (hd : i.readsWdata = true → i.wdata = wdata) :
    assembleOperands i.op i.word wdata = .ok i := by
  cases i with
  | tdes shape => simpa [Instr.op, assembleOperands, shapeOf_word_tdes, Instr.wf] using hw
  | rdc sel sym => simpa [Instr.op, assembleOperands, sel_word, idx_word, Instr.sel, Instr.idx, Instr.wf] using hw
  | ldf sym count =>
    obtain rfl : count = wdata := hd rfl
    simp [Instr.op, assembleOperands, idx_word, Instr.idx]
  | dec expected =>
    obtain rfl : expected = wdata := hd rfl
    rfl
  | _ => simp [Instr.op, assembleOperands, sel_word, idx_word, Instr.sel, Instr.idx]

theorem decode_word (hw : i.wf = true) (hd : i.readsWdata = true → i.wdata = wdata) : decode i.word wdata = .ok i := by
  obtain ⟨r, hr, hop, hs⟩ := exists_row_of_wf hw
  rw [decode_of_selects hr hs, hop, assembleOperands_word hw hd]

/-- Settles O2: the row of a legal command is the one the decoder finds, and the operands stand in the fields they came from. -/
theorem decodeOfEncodeIsTheCommand : Obligations.DecodeOfEncodeIsTheCommand :=
  fun _ hw => decode_word hw fun _ => rfl

/-- A word that agrees with a command's above the open bits and on them is the command's word. -/
theorem word_eq_of_openBits {k : Nat} (high : cw.toNat / 2 ^ k * 2 ^ k = i.opcode.toNat * 2 ^ 24)
    (low : cw.toNat % 2 ^ k = i.sel.toNat * 2 ^ 16 + i.idx.toNat) : i.word = cw := by
  apply BitVec.eq_of_toNat_eq
  rw [toNat_word, ← Nat.div_add_mod' cw.toNat (2 ^ k), high, low]
  ring

/-- What the operands of a word make: a legal command that holds the open bits, and WDATA where it reads it. -/
theorem of_assembleOperands (hops : assembleOperands i.op cw wdata = .ok i)
    (high : cw.toNat / 2 ^ i.op.openBits * 2 ^ i.op.openBits = i.opcode.toNat * 2 ^ 24) :
    i.wf = true ∧ cw.toNat % 2 ^ i.op.openBits = i.sel.toNat * 2 ^ 16 + i.idx.toNat ∧
      (i.readsWdata = true → i.wdata = wdata) := by
  have hidx := toNat_idxOf cw
  have hsel := toNat_selOf cw
  cases i with
  | clr | prof | build | gen | tser | enc => exact ⟨rfl, Nat.mod_one _, nofun⟩
  | dec expected =>
    obtain rfl : wdata = expected := by simpa [Instr.op, assembleOperands] using hops
    exact ⟨rfl, by simp [Instr.op, Op.openBits, Instr.sel, Instr.idx, Nat.mod_one], fun _ => rfl⟩
  | ldf sym count =>
    obtain ⟨rfl, rfl⟩ : idxOf cw = sym ∧ wdata = count := by simpa [Instr.op, assembleOperands] using hops
    exact ⟨rfl, by simp [Instr.op, Op.openBits, Instr.sel, Instr.idx, hidx], fun _ => rfl⟩
  | rdr idx | rdf idx =>
    obtain rfl : idxOf cw = idx := by simpa [Instr.op, assembleOperands] using hops
    exact ⟨rfl, by simp [Instr.op, Op.openBits, Instr.sel, Instr.idx, hidx], nofun⟩
  | tdes shape =>
    obtain ⟨hw, rfl⟩ : shapeOf cw ≠ 3#2 ∧ shapeOf cw = shape := by
      simpa [Instr.op, assembleOperands, ite_eq_iff] using hops
    refine ⟨by simpa [Instr.wf] using hw, ?_, nofun⟩
    simp [Instr.op, Op.openBits, Instr.sel, Instr.idx, toNat_shapeOf]
    omega
  | rdn sel idx =>
    obtain ⟨rfl, rfl⟩ : selOf cw = sel ∧ idxOf cw = idx := by simpa [Instr.op, assembleOperands] using hops
    simp [Instr.op, Op.openBits, Instr.opcode, Instr.wf, Instr.sel, Instr.idx, Instr.readsWdata] at high ⊢
    omega
  | rdc sel idx =>
    obtain ⟨hw, rfl, rfl⟩ : (selOf cw).toNat < 5 ∧ selOf cw = sel ∧ idxOf cw = idx := by
      simpa [Instr.op, assembleOperands, ite_eq_iff] using hops
    simp [Instr.op, Op.openBits, Instr.opcode, Instr.wf, Instr.sel, Instr.idx, Instr.readsWdata] at high ⊢
    omega

/-- What a word decodes to is a legal command, and the word and the WDATA it reads are that command's. -/
theorem of_decode (h : decode cw wdata = .ok i) :
    i.wf = true ∧ i.word = cw ∧ (i.readsWdata = true → i.wdata = wdata) := by
  obtain ⟨r, hr, hs, hops⟩ := decode_row h
  have hop : i.op = r.op := op_of_assembleOperands hops
  rw [Row.selects_iff_toNat hr, ← hop, opcode_op] at hs
  rw [← hop] at hops
  obtain ⟨hw, low, hd⟩ := of_assembleOperands hops hs
  exact ⟨hw, word_eq_of_openBits hs low, hd⟩

/-- The decoder's whole meaning. -/
theorem decode_eq_ok_iff : decode cw wdata = .ok i ↔
    i.wf = true ∧ i.word = cw ∧ (i.readsWdata = true → i.wdata = wdata) := by
  refine ⟨of_decode, ?_⟩
  rintro ⟨hw, rfl, hd⟩
  exact decode_word hw hd

/-- Settles O3: the word's command reads WDATA (LDF, DEC), or it has none and decodes the same with any other. -/
theorem encodeOfDecodeIsTheWord : Obligations.EncodeOfDecodeIsTheWord := by
  intro cw wdata i h
  obtain ⟨hw, rfl, hd⟩ := of_decode h
  refine ⟨hw, rfl, ?_⟩
  have ignored (hi : i.readsWdata = false) (other : Data) : decode i.word other = .ok i :=
    decode_word hw fun reads => by simp [hi] at reads
  cases i with
  | ldf sym count => exact .inl ⟨sym, by rw [← hd rfl]; rfl⟩
  | dec expected => exact .inr (.inl (by rw [← hd rfl]; rfl))
  | _ => exact .inr (.inr ⟨rfl, ignored rfl⟩)

theorem wf_tdes_iff {shape : BitVec 2} : (Instr.tdes shape).wf = true ↔ shape.toNat < 3 := by
  revert shape
  decide

/-- A word with the fields of a legal command decodes. -/
theorem exists_decode_of_fields (i : Instr) (hw : i.wf = true) (hopc : cw.extractLsb' 24 8 = i.opcode)
    (hsel : selOf cw = i.sel) (hidx : idxOf cw = i.idx) (hd : i.readsWdata = true → i.wdata = wdata) :
    ∃ i, decode cw wdata = .ok i :=
  ⟨i, decode_eq_ok_iff.2 ⟨hw, word_eq_iff.2 ⟨hopc, hsel, hidx⟩, hd⟩⟩

/-- Settles O4: the words that decode are those of the legal commands, and the list gives the fields of these. -/
theorem onlyListedWordsAreLegal : Obligations.OnlyListedWordsAreLegal := by
  intro cw wdata opc sel idx
  constructor
  · rintro ⟨i, h⟩
    obtain ⟨hw, hword, -⟩ := of_decode h
    obtain ⟨hopc, hsel, hidx⟩ := word_eq_iff.1 hword
    rw [show opc = i.opcode from hopc, show sel = i.sel from hsel, show idx = i.idx from hidx]
    cases i with
    | tdes shape =>
      have hidx : (shape.setWidth 16 : Idx).toNat < 3 := by
        rw [BitVec.toNat_setWidth]
        exact (Nat.mod_le _ _).trans_lt (wf_tdes_iff.1 hw)
      simpa [Instr.opcode, Instr.sel, Instr.idx] using hidx
    | rdn sel idx => simpa [Instr.opcode, Instr.sel, Instr.wf] using hw
    | rdc sel sym => simpa [Instr.opcode, Instr.sel, Instr.wf] using hw
    | _ => simp [Instr.opcode, Instr.sel, Instr.idx]
  · simp only [List.mem_cons, List.not_mem_nil, or_false]
    rintro (⟨hopc | hopc | hopc | hopc | hopc | hopc | hopc, hsel, hidx⟩ | ⟨hopc | hopc | hopc, hsel⟩ |
      ⟨hopc, hsel, hidx⟩ | ⟨hopc, hsel⟩ | ⟨hopc, hsel⟩)
    · exact exists_decode_of_fields .clr rfl hopc hsel hidx nofun
    · exact exists_decode_of_fields .prof rfl hopc hsel hidx nofun
    · exact exists_decode_of_fields .build rfl hopc hsel hidx nofun
    · exact exists_decode_of_fields .gen rfl hopc hsel hidx nofun
    · exact exists_decode_of_fields .tser rfl hopc hsel hidx nofun
    · exact exists_decode_of_fields .enc rfl hopc hsel hidx nofun
    · exact exists_decode_of_fields (.dec wdata) rfl hopc hsel hidx fun _ => rfl
    · exact exists_decode_of_fields (.ldf idx wdata) rfl hopc hsel rfl fun _ => rfl
    · exact exists_decode_of_fields (.rdr idx) rfl hopc hsel rfl nofun
    · exact exists_decode_of_fields (.rdf idx) rfl hopc hsel rfl nofun
    · have hshape : (idx.setWidth 2).toNat = idx.toNat := by
        rw [BitVec.toNat_setWidth]
        omega
      have hw : (Instr.tdes (idx.setWidth 2)).wf = true := wf_tdes_iff.2 (hshape ▸ hidx)
      refine exists_decode_of_fields _ hw hopc hsel (BitVec.eq_of_toNat_eq ?_) nofun
      show idx.toNat = ((idx.setWidth 2).setWidth 16).toNat
      rw [BitVec.toNat_setWidth, hshape]
      omega
    · exact exists_decode_of_fields (.rdn sel idx) (by simpa [Instr.wf] using hsel) hopc rfl rfl nofun
    · exact exists_decode_of_fields (.rdc sel idx) (by simpa [Instr.wf] using hsel) hopc rfl rfl nofun

/-- Settles O1: each word is the command's, and the WDATA is the operand of LDF and DEC. -/
theorem writtenWordsDecode : Obligations.WrittenWordsDecode := by
  refine ⟨?_, ?_, ?_, ?_, ?_, ?_, ?_, ?_, ?_, ?_, ?_, ?_, ?_⟩ <;> exact decode_eq_ok_iff.2 (by decide)

end Sys2Proof

/-! SUPPORT. What is rejected at issue (30_encoding.md R96 to R98), and the responses of a step (R92, R93, R273). -/

namespace Sys2Proof.Machine

variable {s t u : State} {i : Instr}

/-! ### Rejection at issue -/

/-- Settles O8: a word that decodes to no command is answered by the decoder's rejection. -/
theorem illegalWordsAreRejected : Obligations.IllegalWordsAreRejected := by
  intro s cw wdata rest hm hd
  rw [step_of_move hm]
  rcases issueWord_cases cw wdata { s with moves := rest } with ⟨_, _, e⟩ | ⟨i, h, _⟩
  · exact e
  · exact (hd i h).elim

/-- With no command running, the sequence check is the first that a legal command can fail (R96). -/
theorem exec_of_seq_fail (hw : i.wf = true) (hp : s.phase = .idle) (hs : ¬seqOk i s = true) :
    exec i s = .next (s.respond rejSeq 0) :=
  exec_of_fail (by simp [checks, hw, busy_of_idle hp, hs])

/-- Settles O10: each clause is the failed sequence check of its command. -/
theorem sequenceTable : Obligations.SequenceTable := by
  intro s hp rejected
  have reject {i : Instr} (h : ¬seqOk i s = true) (hw : i.wf = true) : exec i s = rejected := exec_of_seq_fail hw hp h
  refine ⟨fun h => reject ?_ rfl, fun h sym count => reject ?_ rfl, fun h => reject ?_ rfl, fun h => reject ?_ rfl,
    fun h => reject ?_ rfl, fun h shape hshape => reject ?_ (by simpa [Instr.wf] using hshape), fun h => reject ?_ rfl,
    fun h expected => reject ?_ rfl⟩ <;> simpa [seqOk, and_assoc] using h

/-! ### Responses: the running command -/

/-- Between the two states no response was given, or one was that ended the command: OK or ERR, with RDATA 0 (R8, R275). -/
def EndsOnce (s t : State) : Prop :=
  t.rsps = s.rsps ∨ t.phase = .idle ∧ ∃ resp ∈ [respOk, respErr], t.rsps = s.rsps ++ [⟨resp, 0⟩]

theorem endsOnce_finish (h : u.rsps = s.rsps) : EndsOnce s u.finish :=
  .inr ⟨rfl, respOk, by simp, by simp [h]⟩

theorem endsOnce_raise (h : u.rsps = s.rsps) (e : Err) : EndsOnce s (u.raise e) :=
  .inr ⟨rfl, respErr, by simp, by simp [h]⟩

theorem sat_endsOnce_inPop (h : u.rsps = s.rsps) {k : Option Byte → State → Result}
    (goes : ∀ item v, v.rsps = s.rsps → Sat True (EndsOnce s) (k item v)) : Sat True (EndsOnce s) (inPop u k) :=
  sat_inPop (.inl h) (fun _ _ => goes _ _ h) (fun _ => goes _ _ h) fun rest => endsOnce_raise (u := u.popped .fail rest) h _

theorem sat_endsOnce_getByte (h : u.rsps = s.rsps) {k : Byte → State → Result}
    (goes : ∀ b v, v.rsps = s.rsps → Sat True (EndsOnce s) (k b v)) : Sat True (EndsOnce s) (getByte u k) :=
  sat_endsOnce_inPop h fun item v hv => by
    cases item with
    | none => exact endsOnce_raise hv _
    | some b => exact goes b v hv

theorem sat_endsOnce_outPush (h : u.rsps = s.rsps) {b : Byte} {k : State → Result}
    (goes : ∀ v, v.rsps = s.rsps → Sat True (EndsOnce s) (k v)) : Sat True (EndsOnce s) (outPush b u k) :=
  sat_outPush (.inl h) (goes _ h) (endsOnce_raise (u := u.answered) h _)

theorem endsOnce_serGoOn (h : u.rsps = s.rsps) (todo : List SerWork) : EndsOnce s (serGoOn todo u) := by
  cases todo with
  | nil => exact endsOnce_finish h
  | cons w todo => exact .inl h

theorem sat_endsOnce_serMicro (h : u.rsps = s.rsps) (todo : List SerWork) : Sat True (EndsOnce s) (serMicro todo u) := by
  match todo with
  | [] => exact endsOnce_finish h
  | .sym b :: rest =>
    rw [serMicro]
    exact sat_endsOnce_outPush h fun _ hv => endsOnce_serGoOn hv _
  | .node i :: rest =>
    rw [serMicro]
    split
    · trivial
    · exact sat_endsOnce_outPush h fun _ hv => endsOnce_serGoOn hv _
    · exact sat_endsOnce_outPush h fun _ hv => endsOnce_serGoOn hv _

theorem endsOnce_treeRead (h : u.rsps = s.rsps) (root : NodeIdx) (shape : BitVec 2) :
    EndsOnce s (u.treeRead root shape) :=
  endsOnce_finish (u := { u with root := root, shape := shape, tv := true }) h

theorem endsOnce_desReturn (h : u.rsps = s.rsps) (r : NodeIdx) (stack : List DesFrame) :
    EndsOnce s (desReturn r stack u) := by
  induction stack generalizing r u with
  | nil => exact endsOnce_treeRead h r 2
  | cons f stack ih =>
    cases f with
    | lone => exact endsOnce_treeRead (u := u.modifyNode 0 _) h 0 1
    | left i => exact .inl h
    | right i => exact ih (u := u.modifyNode i _) h i

theorem putBits_rsps (bits : List Bool) (s : State) : (putBits bits s).rsps = s.rsps := by
  rw [putBits_frame]

theorem endsOnce_encDone (h : u.rsps = s.rsps) : EndsOnce s u.encDone :=
  endsOnce_finish (u := { u.emptyAcc with fin := true }) h

theorem sat_endsOnce_decBits (h : u.rsps = s.rsps) (n : Nat) : Sat True (EndsOnce s) (decBits n u) :=
  sat_of_forall fun t e => by
    obtain ⟨dbyte, dbits, cur, rfl | ⟨_, rfl⟩ | rfl⟩ := decBits_cases n u t e
    · exact endsOnce_raise (u := { u with dbyte := dbyte, dbits := dbits, cur := cur }) h _
    · exact .inl h
    · exact .inl h

theorem sat_endsOnce_decNext (h : u.rsps = s.rsps) : Sat True (EndsOnce s) (decNext u) := by
  unfold decNext decSymbol
  split
  · split
    · exact endsOnce_raise h _
    · exact sat_endsOnce_decBits (u := { u with cur := u.root }) h _
  · exact endsOnce_finish (u := { u with fin := true }) h

theorem sat_endsOnce_micro_of_silent (h : u.rsps = s.rsps) : Sat True (EndsOnce s) (micro u) := by
  simp only [micro]
  cases u.phase with
  | idle => exact .inl h
  | profPop =>
    refine sat_endsOnce_inPop h fun item v hv => ?_
    cases item with
    | none => exact endsOnce_finish (u := { v with fv := true }) hv
    | some b =>
      dsimp only
      split
      · exact endsOnce_raise hv _
      · exact .inl hv
  | serPush todo => exact sat_endsOnce_serMicro h todo
  | desRoot =>
    refine sat_endsOnce_getByte h fun b v hv => ?_
    split
    · exact endsOnce_raise hv _
    · exact .inl hv
  | desTag stack =>
    refine sat_endsOnce_getByte h fun b v hv => ?_
    split_ifs
    · exact endsOnce_raise hv _
    · exact endsOnce_raise hv _
    · exact .inl hv
    · exact .inl hv
  | desSym stack =>
    exact sat_endsOnce_getByte h fun b v hv =>
      endsOnce_desReturn (u := { v.allocated (.leaf b 0) with nsym := v.nsym + 1 }) hv _ stack
  | encPop =>
    refine sat_endsOnce_inPop h fun item v hv => ?_
    cases item with
    | none =>
      dsimp only
      split
      · exact endsOnce_encDone hv
      · exact .inl hv
    | some b =>
      dsimp only
      split
      · exact endsOnce_raise hv _
      · exact .inl ((putBits_rsps _ v).trans hv)
  | encPush v rest => exact sat_endsOnce_outPush h fun v hv => .inl ((putBits_rsps rest v.emptyAcc).trans hv)
  | encFlush => exact sat_endsOnce_outPush h fun _ hv => endsOnce_encDone hv
  | decPop =>
    refine sat_endsOnce_inPop h fun item v hv => ?_
    cases item with
    | none => exact endsOnce_raise hv _
    | some b => exact sat_endsOnce_decBits (u := { v with dbyte := b, dbits := 8 }) hv 8
  | decPush sym => exact sat_endsOnce_outPush h fun v hv => sat_endsOnce_decNext (u := { v with decoded := v.decoded + 1 }) hv

/-- A command that has given its response takes no further micro-step. -/
theorem sat_endsOnce_micro (h : EndsOnce s u) : Sat True (EndsOnce s) (micro u) := by
  rcases h with silent | ended
  · exact sat_endsOnce_micro_of_silent silent
  · rw [micro_idle ended.1]
    exact .inr ended

theorem sat_endsOnce_goOn (h : EndsOnce s u) : Sat True (EndsOnce s) (goOn u) := sat_goOn (fun _ => sat_endsOnce_micro) h

theorem endsOnce_desStart (h : u.rsps = s.rsps) (shape : BitVec 2) : EndsOnce s (u.desStart shape) := by
  unfold State.desStart
  dsimp only
  split_ifs
  · exact endsOnce_treeRead (u := { u with nodes := [], nsym := 0 }) h _ _
  · exact .inl h
  · exact .inl h

/-! ### Responses: the step -/

/-- Between the two states at most one response was given, of a listed code, with RDATA 0 unless it is OK; and a rejection is
all that happened (R92, R93, R273). -/
def RespondsOnce (s t : State) : Prop :=
  t.rsps = s.rsps ∨ ∃ r : Response, t.rsps = s.rsps ++ [r] ∧ r.resp ∈ [0#4, 1#4, 8#4, 9#4, 10#4, 11#4] ∧
    (r.resp ≠ 0 → r.rdata = 0) ∧ (8 ≤ r.resp.toNat → t = { s with rsps := s.rsps ++ [r] })

theorem respondsOnce_ok (v : Data) (h : t.rsps = s.rsps ++ [⟨respOk, v⟩]) : RespondsOnce s t :=
  .inr ⟨_, h, by simp [respOk], fun hne => (hne rfl).elim, fun hle => absurd hle (by decide : ¬8 ≤ respOk.toNat)⟩

theorem respondsOnce_reject {resp : BitVec 4} (h : resp ∈ [rejIllegal, rejBusy, rejSeq, rejRange]) :
    RespondsOnce s (s.respond resp 0) := by
  have listed : ∀ r ∈ [rejIllegal, rejBusy, rejSeq, rejRange], r ∈ [0#4, 1#4, 8#4, 9#4, 10#4, 11#4] := by decide
  exact .inr ⟨_, rfl, listed resp h, fun _ => rfl, fun _ => rfl⟩

theorem EndsOnce.respondsOnce (h : EndsOnce s t) : RespondsOnce s t := by
  rcases h with silent | ⟨_, resp, hresp, hr⟩
  · exact .inl silent
  · have listed : ∀ r ∈ [respOk, respErr], r ∈ [0#4, 1#4, 8#4, 9#4, 10#4, 11#4] ∧ ¬8 ≤ r.toNat := by decide
    obtain ⟨hl, hlow⟩ := listed resp hresp
    exact .inr ⟨_, hr, hl, fun _ => rfl, fun hle => (hlow hle).elim⟩

theorem Sat.respondsOnce {r : Result} (h : Sat True (EndsOnce s) r) : Sat True (RespondsOnce s) r :=
  sat_of_forall fun _ e => (h.of_eq_next e).respondsOnce

/-- A read that is accepted answers OK; the NODE entry that RDN reads is in range (R246 to R249). -/
theorem exec_read_of_pass (hi : isRead i = true) (hc : checks i s = none) :
    ∃ v, exec i s = .next (s.respond respOk v) := by
  cases i with
  | rdr reg => exact ⟨_, issued_of_pass hc⟩
  | rdf sym => exact ⟨_, issued_of_pass hc⟩
  | rdn sel idx =>
    obtain ⟨_, _, _, inRange⟩ := checks_eq_none.1 hc
    have hrange : idx.toNat < s.nodes.length := of_decide_eq_true inRange
    refine ⟨(s.nodes[idx.toNat]).selected sel, ?_⟩
    rw [exec, execRdn, issued_of_pass hc, State.accept_nodes, List.getElem?_eq_getElem hrange]
    rfl
  | rdc sel sym => exact ⟨_, issued_of_pass hc⟩
  | _ => cases hi

theorem built_rsps (s : State) : s.built.rsps = s.rsps := by rw [built_frame]

theorem sat_respondsOnce_exec (i : Instr) (s : State) : Sat True (RespondsOnce s) (exec i s) := by
  rcases hc : checks i s with _ | resp
  case some =>
    rw [exec_of_fail hc]
    exact respondsOnce_reject (by simpa using checks_eq_some hc)
  have read (hi : isRead i = true) : Sat True (RespondsOnce s) (exec i s) := by
    obtain ⟨v, e⟩ := exec_read_of_pass hi hc
    rw [e]
    exact respondsOnce_ok v rfl
  cases i with
  | clr =>
    rw [exec, execClr, issued_of_pass hc]
    exact respondsOnce_ok 0 rfl
  | prof =>
    rw [exec, execProf, issued_of_pass hc]
    exact Sat.respondsOnce (sat_endsOnce_goOn (.inl rfl))
  | ldf sym count =>
    rw [exec, execLdf, issued_of_pass hc]
    exact respondsOnce_ok 0 rfl
  | build =>
    rw [exec, execBuild, issued_of_pass hc]
    exact respondsOnce_ok 0 (by rw [State.respond_rsps, built_rsps, State.accept_rsps])
  | gen =>
    rw [exec, execGen, issued_of_pass hc]
    split
    · exact respondsOnce_ok 0 rfl
    · split
      · exact respondsOnce_ok 0 rfl
      · trivial
  | tser =>
    rw [exec, execTser, issued_of_pass hc]
    exact Sat.respondsOnce (sat_endsOnce_goOn (endsOnce_serGoOn rfl _))
  | tdes shape =>
    rw [exec, execTdes, issued_of_pass hc]
    exact Sat.respondsOnce (sat_endsOnce_goOn (endsOnce_desStart rfl _))
  | enc =>
    rw [exec, execEnc, issued_of_pass hc]
    exact Sat.respondsOnce (sat_endsOnce_goOn (.inl rfl))
  | dec expected =>
    rw [exec, execDec, issued_of_pass hc]
    exact Sat.respondsOnce (sat_andThen (sat_endsOnce_decNext rfl) fun _ => sat_endsOnce_goOn)
  | rdr reg => exact read rfl
  | rdf sym => exact read rfl
  | rdn sel idx => exact read rfl
  | rdc sel sym => exact read rfl

theorem sat_respondsOnce_takeMove (m : Move) (s : State) : Sat True (RespondsOnce s) (takeMove m s) := by
  cases m with
  | issue cw wdata =>
    rw [takeMove]
    rcases issueWord_cases cw wdata s with ⟨_, _, e⟩ | ⟨i, _, e⟩ <;> rw [e]
    · exact respondsOnce_reject (by simp)
    · exact sat_respondsOnce_exec i s
  | core => exact (sat_endsOnce_micro_of_silent rfl).respondsOnce
  | push it => exact .inl rfl
  | take => exact .inl rfl
  | answer a => exact .inl rfl
  | reset => exact .inl rfl

/-- Settles O56: a running command responds when it ends and then takes no further micro-step, so a step responds once; only a
failed check and an illegal word give a rejection, and they do nothing else. -/
theorem responsesAreTheListedOnes : Obligations.ResponsesAreTheListedOnes := by
  intro s t e
  rcases step_cases s with ⟨hm, hstep⟩ | ⟨m, rest, hm, hstep⟩ <;> rw [hstep] at e
  · have h : RespondsOnce s t := (Sat.respondsOnce (sat_endsOnce_micro_of_silent rfl)).of_eq_next e
    have unmoved : { s with moves := s.moves.tail } = s :=
      congrArg (fun moves => { s with moves := moves }) (by simp [hm] : s.moves.tail = s.moves)
    rw [← unmoved] at h
    exact h
  · rw [hm]
    exact (sat_respondsOnce_takeMove m { s with moves := rest }).of_eq_next e

end Sys2Proof.Machine

/-! SUPPORT. The FrequencyProfiler (41_profiler.md): PROF stands at its InPop with the part of the source counted so far
behind it, for every split of the source (R120, R122), and the outcomes of LDF while idle (R121). -/

namespace Sys2Proof.Machine

variable {s t : State} {src : List Byte} {rest : List Item}

/-! ### The counts of a source -/

/-- The table with every symbol's number of occurrences in the source added, modulo 2^64 (R120). -/
def tally (freq : Vector Data 256) (src : List Byte) : Vector Data 256 :=
  Vector.ofFn fun b : Fin 256 => entry freq (BitVec.ofNat 8 b.val) + BitVec.ofNat 64 (src.count (BitVec.ofNat 8 b.val))

@[simp] theorem entry_tally (freq : Vector Data 256) (src : List Byte) (b : Byte) :
    entry (tally freq src) b = entry freq b + BitVec.ofNat 64 (src.count b) := by
  simp [tally]

@[simp] theorem tally_nil (freq : Vector Data 256) : tally freq [] = freq := table_ext fun b => by simp

/-- One more byte of the source adds one to its own count. -/
theorem setEntry_tally (freq : Vector Data 256) (src : List Byte) (b : Byte) :
    setEntry (tally freq src) b (entry (tally freq src) b + 1) = tally freq (src ++ [b]) := by
  apply table_ext
  intro a
  rw [entry_setEntry]
  split
  · next h => subst h; simp [BitVec.ofNat_add, BitVec.add_assoc]
  · next h => simp [Ne.symm h]

/-- The order of the source does not matter to the counts (R122). -/
theorem tally_perm {src' : List Byte} (h : src.Perm src') (freq : Vector Data 256) : tally freq src = tally freq src' :=
  table_ext fun b => by simp [h.count_eq b]

/-! ### PROF -/

/-- PROF, accepted in state `s`, at its InPop: `src` is counted, `rest` is what INQ still holds (R120). -/
def State.profiling (s : State) (src : List Byte) (rest : List Item) : State :=
  { s with
    curop := 0x10, incnt := BitVec.ofNat 64 src.length, outcnt := 0, inq := rest, phase := .profPop
    freq := tally s.freq src, total := s.total + BitVec.ofNat 64 src.length }

theorem profiling_nil (s : State) : s.profiling [] s.inq = { s.accept .prof with phase := .profPop } := by
  simp only [State.profiling, tally_nil, List.length_nil, BitVec.add_zero]
  rfl

theorem profiling_perm {src' : List Byte} (h : src.Perm src') (s : State) (rest : List Item) :
    s.profiling src rest = s.profiling src' rest := by
  simp only [State.profiling, tally_perm h, h.length_eq]

theorem enabled_profiling (s : State) (src : List Byte) (it : Item) (rest : List Item) :
    (s.profiling src (it :: rest)).enabled = true := rfl

theorem counted_profiling (s : State) (src : List Byte) (b : Byte) (rest : List Item) :
    ((s.profiling src (.byte b :: rest)).popped (.byte b) rest).counted b = s.profiling (src ++ [b]) rest := by
  simp only [State.profiling, List.length_append, List.length_singleton, BitVec.ofNat_add, ← BitVec.add_assoc,
    ← setEntry_tally]
  rfl

/-- A byte is counted as long as TOTAL has room for it (R120, R271). -/
theorem micro_profiling_byte {b : Byte} (room : s.total.toNat + src.length + 1 < 2 ^ 64) :
    micro (s.profiling src (.byte b :: rest)) = .next (s.profiling (src ++ [b]) rest) := by
  have small : s.total + BitVec.ofNat 64 src.length ≠ BitVec.allOnes 64 := by
    intro e
    have := congrArg BitVec.toNat e
    simp only [BitVec.toNat_add, BitVec.toNat_ofNat, BitVec.toNat_allOnes] at this
    omega
  rw [micro_profPop rfl, profMicro, inPop_byte rfl, ← counted_profiling]
  exact if_neg small

theorem micro_profiling_eos :
    micro (s.profiling src (.eos :: rest)) = .next { s.profiling src rest with fv := true }.finish := by
  rw [micro_profPop rfl, profMicro, inPop_eos rfl]
  rfl

theorem micro_profiling_fail :
    micro (s.profiling src (.fail :: rest)) = .next ((s.profiling src rest).raise .ioSource) := by
  rw [micro_profPop rfl, profMicro, inPop_fail rfl]
  rfl

/-- As many micro-steps as there are bytes count them all. -/
theorem runMicro_profiling (todo : List Byte) (room : s.total.toNat + (src ++ todo).length < 2 ^ 64) (n : Nat) :
    runMicro (todo.length + n) (s.profiling src (todo.map .byte ++ rest)) =
      runMicro n (s.profiling (src ++ todo) rest) := by
  induction todo generalizing src with
  | nil => simp
  | cons b todo ih =>
    have here : s.total.toNat + src.length + 1 < 2 ^ 64 := by
      simp only [List.length_append, List.length_cons] at room
      omega
    rw [List.append_cons] at room ⊢
    rw [List.length_cons, Nat.add_right_comm, List.map_cons, List.cons_append,
      runMicro_enabled (enabled_profiling s src _ _), micro_profiling_byte here, andThen_next, ih room]

/-- A micro-step that ends the command is the last. -/
theorem runMicro_of_ends (he : s.enabled = true) (hm : micro s = .next t) (ht : t.phase = .idle) (n : Nat) :
    runMicro (n + 1) s = .next t := by
  rw [runMicro_enabled he, hm, andThen_next, runMicro_idle ht]

/-- What issuing PROF needs to be accepted (R97), a source in front of INQ whose bytes fit in TOTAL, and the pace to count it
(log entry 3). -/
structure ProfReady (s : State) (src : List Byte) (rest : List Item) : Prop where
  idle : s.phase = .idle
  err : s.err = false
  fv : s.fv = false
  tv : s.tv = false
  inq : s.inq = src.map .byte ++ rest
  room : s.total.toNat + src.length < 2 ^ 64
  pace : src.length ≤ s.pace

/-- PROF counts the source and takes what is left of the pace from there. -/
theorem ProfReady.exec_prof (h : ProfReady s src rest) :
    exec .prof s = runMicro (s.pace - src.length) (s.profiling src rest) := by
  rw [exec, execProf, issued_of_pass (pass_prof h.idle h.err h.fv h.tv), ← profiling_nil, h.inq]
  show runMicro s.pace _ = _
  rw [← Nat.add_sub_of_le h.pace]
  simpa using runMicro_profiling (src := []) src (by simpa using h.room) (s.pace - src.length)

/-- PROF on a source with an item behind it that ends the command. -/
theorem ProfReady.exec_prof_of_ends {it : Item} (h : ProfReady s src (it :: rest)) (hpace : src.length + 1 ≤ s.pace)
    (hm : micro (s.profiling src (it :: rest)) = .next t) (ht : t.phase = .idle) : exec .prof s = .next t := by
  obtain ⟨n, hn⟩ : ∃ n, s.pace - src.length = n + 1 := ⟨s.pace - src.length - 1, by omega⟩
  rw [h.exec_prof, hn, runMicro_of_ends (enabled_profiling s src it rest) hm ht]

/-- PROF on a source that ends with EOS (R120). -/
theorem ProfReady.exec_prof_eos (h : ProfReady s src (.eos :: rest)) (hpace : src.length + 1 ≤ s.pace) :
    exec .prof s = .next { s.profiling src rest with fv := true }.finish :=
  h.exec_prof_of_ends hpace micro_profiling_eos rfl

/-- PROF on a source that fails (R120). -/
theorem ProfReady.exec_prof_fail (h : ProfReady s src (.fail :: rest)) (hpace : src.length + 1 ≤ s.pace) :
    exec .prof s = .next ((s.profiling src rest).raise .ioSource) :=
  h.exec_prof_of_ends hpace micro_profiling_fail rfl

/-- Settles O20: every byte is a micro-step that counts it, and EOS ends the command. -/
theorem profCountsTheSource : Obligations.ProfCountsTheSource := by
  intro s src rest hp he hf ht hq room hpace
  rw [ProfReady.exec_prof_eos ⟨hp, he, hf, ht, hq, room, Nat.le_of_succ_le hpace⟩ hpace]
  show Host.Outcome.next { { s.profiling src rest with fv := true }.finish with phase := .idle } = _
  rw [← hp]
  rfl

/-- Settles O21: the counts and the length of a source, all that PROF keeps of it, are those of its reorderings. -/
theorem profIgnoresTheOrder : Obligations.ProfIgnoresTheOrder := by
  intro s src src' rest hp he hf ht hperm room hpace
  have counts (l : List Byte) (room : s.total.toNat + l.length < 2 ^ 64) (hpace : l.length + 1 ≤ s.pace) :
      exec .prof { s with inq := l.map .byte ++ .eos :: rest } = .next { s.profiling l rest with fv := true }.finish :=
    ProfReady.exec_prof_eos (s := { s with inq := _ }) ⟨hp, he, hf, ht, rfl, room, Nat.le_of_succ_le hpace⟩ hpace
  refine ⟨_, counts src room hpace, ?_, rfl⟩
  rw [hperm.length_eq] at room hpace
  rw [profiling_perm hperm]
  exact counts src' room hpace

/-- Settles O23: every byte before the FAIL is counted, and the FAIL raises IO 1 with the counts as they are. -/
theorem profKeepsCountsOfAFailedSource : Obligations.ProfKeepsCountsOfAFailedSource := by
  intro s src rest hp he hf ht hq room hpace
  rw [ProfReady.exec_prof_fail ⟨hp, he, hf, ht, hq, room, Nat.le_of_succ_le hpace⟩ hpace]
  show Host.Outcome.next { (s.profiling src rest).raise .ioSource with phase := .idle } = _
  rw [← hp]
  rfl

/-! ### LDF -/

/-- With no command running and the sequence check passed, the range check is the one that is left to fail (R96). -/
theorem exec_of_range_fail {i : Instr} (hw : i.wf = true) (hp : s.phase = .idle) (hs : seqOk i s = true)
    (hr : ¬rangeOk i s = true) : exec i s = .next (s.respond rejRange 0) :=
  exec_of_fail (by simp [checks, hw, busy_of_idle hp, hs, hr])

theorem rangeOk_ldf {sym : Idx} {count : Data} :
    rangeOk (.ldf sym count) s = true ↔ sym.toNat ≤ 255 ∧ ldfTotal (symbolOf sym) count s < 2 ^ 64 := by
  simp only [rangeOk, Bool.and_eq_true, decide_eq_true_eq]

theorem seqOk_ldf {sym : Idx} {count : Data} : seqOk (.ldf sym count) s = true ↔ s.err = false ∧ s.tv = false := by
  simp [seqOk]

theorem exec_ldf_of_pass {sym : Idx} {count : Data} (h : checks (.ldf sym count) s = none) :
    exec (.ldf sym count) s = .next { s with
      curop := 0x11, fv := true, freq := setEntry s.freq (symbolOf sym) count
      total := BitVec.ofNat 64 (ldfTotal (symbolOf sym) count s)
      rsps := s.rsps ++ [⟨respOk, 0⟩] } := by
  rw [exec, execLdf, issued_of_pass h]
  rfl

/-- Settles O25: the four clauses are the accepted LDF, the two halves of its range check and its sequence check. -/
theorem ldfReplacesOneCount : Obligations.LdfReplacesOneCount := by
  intro s count hp
  refine ⟨fun b he ht _ hfit => ?accepted, fun b he ht _ hover => ?totalTooLarge, fun sym he ht hsym => ?noSymbol,
    fun sym h => ?sequence⟩
  case accepted =>
    have inTable : (b.setWidth 16 : Idx).toNat ≤ 255 := by
      rw [toNat_setWidth_symbol]
      exact Nat.le_of_lt_succ b.isLt
    rw [exec_ldf_of_pass (pass_ldf hp he ht inTable (by rwa [symbolOf_setWidth])), symbolOf_setWidth]
    rfl
  case totalTooLarge =>
    refine exec_of_range_fail rfl hp (seqOk_ldf.2 ⟨he, ht⟩) fun hr => ?_
    have hfit := (rangeOk_ldf.1 hr).2
    rw [symbolOf_setWidth] at hfit
    exact absurd hover (Nat.not_le.2 hfit)
  case noSymbol =>
    exact exec_of_range_fail rfl hp (seqOk_ldf.2 ⟨he, ht⟩) fun hr => Nat.not_le.2 hsym (rangeOk_ldf.1 hr).1
  case sequence =>
    refine exec_of_seq_fail rfl hp fun hs => ?_
    obtain ⟨he, ht⟩ := seqOk_ldf.1 hs
    simp [he, ht] at h

end Sys2Proof.Machine

/-! SUPPORT. The order of PQ: Insert goes behind equal weights, and so BUILD keeps PQ sorted by (weight, index)
(42_treebuilder.md R142, R146); and the statements about it. -/

namespace Sys2Proof.Safety

open Sys2Proof.Machine

variable {nodes more : List Node} {pq rest : List NodeIdx} {x y z a b : NodeIdx} {f : Forest}

/-! ### Insert -/

/-- Where `p` holds of every element before one it holds of, the elements with `p` are the first ones. -/
theorem countP_splits {α : Type} {p : α → Bool} {l : List α} (h : l.Pairwise fun y z => p z = true → p y = true) :
    (∀ y ∈ l.take (l.countP p), p y = true) ∧ ∀ y ∈ l.drop (l.countP p), p y = false := by
  induction h with
  | nil => simp
  | @cons y l head _ ih =>
    cases hp : p y with
    | true => simpa [List.countP_cons, hp] using ih
    | false =>
      have none_left : ∀ z ∈ l, p z = false := fun z hz => by simpa [hp] using mt (head z hz)
      have count : l.countP p = 0 := by simpa [List.countP_eq_zero] using none_left
      simpa [List.countP_cons, hp, count] using none_left

/-- Insert puts x between the elements that are not heavier and the heavier ones (R142). -/
theorem insertPq_splits (x : NodeIdx) (sorted : pq.Pairwise fun y z => weightAt nodes y ≤ weightAt nodes z) :
    ∃ front back, pq = front ++ back ∧ insertPq nodes pq x = front ++ x :: back ∧
      (∀ y ∈ front, weightAt nodes y ≤ weightAt nodes x) ∧ ∀ y ∈ back, weightAt nodes x < weightAt nodes y := by
  obtain ⟨light, heavy⟩ := countP_splits (p := fun y => decide (weightAt nodes y ≤ weightAt nodes x))
    (sorted.imp fun h hz => decide_eq_true (BitVec.le_trans h (of_decide_eq_true hz)))
  exact ⟨_, _, (List.take_append_drop _ pq).symm, rfl, fun y hy => of_decide_eq_true (light y hy),
    fun y hy => BitVec.not_le.1 (of_decide_eq_false (heavy y hy))⟩

/-- An element put between two parts of a sorted list, in order with both, leaves it sorted. -/
theorem pairwise_insert {α : Type} {R : α → α → Prop} {front back : List α} {x : α} (h : (front ++ back).Pairwise R)
    (hf : ∀ y ∈ front, R y x) (hb : ∀ y ∈ back, R x y) : (front ++ x :: back).Pairwise R := by
  obtain ⟨sortedFront, sortedBack, across⟩ := List.pairwise_append.1 h
  refine List.pairwise_append.2 ⟨sortedFront, List.pairwise_cons.2 ⟨hb, sortedBack⟩, fun y hy z hz => ?_⟩
  rcases List.mem_cons.1 hz with rfl | hz
  · exact hf y hy
  · exact across y hy z hz

/-- Settles O30: the elements not heavier than x are a first part of PQ, and x goes behind that part. -/
theorem insertGoesBehindEqualWeights : Obligations.InsertGoesBehindEqualWeights := by
  intro nodes pq x sorted
  obtain ⟨front, back, hpq, hins, light, heavy⟩ := insertPq_splits x sorted
  refine ⟨front, back, hpq, hins, light, heavy, ?_⟩
  rw [hins]
  exact pairwise_insert (hpq ▸ sorted) light fun y hy => BitVec.le_of_lt (heavy y hy)

/-! ### PQ sorted by weight and age -/

theorem weight_le_of_before (h : before nodes y z) : weightAt nodes y ≤ weightAt nodes z :=
  h.elim BitVec.le_of_lt fun same => same.1 ▸ BitVec.le_refl _

theorem before_irrefl (nodes : List Node) (y : NodeIdx) : ¬before nodes y y := by simp [before]

/-- The order of two nodes is the same in a longer table. -/
theorem before_append (hy : y.toNat < nodes.length) (hz : z.toNat < nodes.length) :
    before (nodes ++ more) y z ↔ before nodes y z := by
  rw [before, before, weightAt_append hy, weightAt_append hz]

/-- Inserted behind its equals, a node younger than all of PQ takes its place by (weight, index) (R142, R146). -/
theorem insertPq_sorted (sorted : pq.Pairwise (before nodes)) (younger : ∀ y ∈ pq, y < x) :
    (insertPq nodes pq x).Pairwise (before nodes) := by
  obtain ⟨front, back, rfl, hins, light, heavy⟩ := insertPq_splits x (sorted.imp weight_le_of_before)
  rw [hins]
  refine pairwise_insert sorted (fun y hy => ?_) fun y hy => .inl (heavy y hy)
  rcases Nat.lt_or_eq_of_le (BitVec.le_def.1 (light y hy)) with lighter | same
  · exact .inl lighter
  · exact .inr ⟨BitVec.eq_of_toNat_eq same, younger y (List.mem_append_left _ hy)⟩

/-- The leaves inserted in the order of their indices are sorted by (weight, index) (R140, R146). -/
theorem foldl_insertPq_sorted (nodes : List Node) {n : Nat} (hn : n ≤ 512) :
    ((indexRange n).foldl (insertPq nodes) []).Pairwise (before nodes) := by
  induction n with
  | zero => exact .nil
  | succ n ih =>
    rw [indexRange_succ, List.foldl_append]
    refine insertPq_sorted (ih (by omega)) fun y hy => ?_
    have hy : y ∈ indexRange n := by simpa using (foldl_insertPq_perm nodes (indexRange n) []).mem_iff.1 hy
    rw [BitVec.lt_def, toNat_ofNat_index hn]
    exact (mem_indexRange (by omega)).1 hy

theorem ofLeaves_sorted {leaves : List Node} (h : leaves.length ≤ 512) :
    (Forest.ofLeaves leaves).pq.Pairwise (before leaves) := foldl_insertPq_sorted leaves h

/-- The first two of a sorted PQ are its two least (R146). -/
theorem first_two_least (hpq : f.pq = a :: b :: rest) (sorted : f.pq.Pairwise (before f.nodes)) :
    before f.nodes a b ∧ (∀ y ∈ rest, before f.nodes a y ∧ before f.nodes b y) ∧ rest.Pairwise (before f.nodes) := by
  rw [hpq, List.pairwise_cons, List.pairwise_cons] at sorted
  obtain ⟨ha, hb, sortedRest⟩ := sorted
  exact ⟨ha b (.head _), fun y hy => ⟨ha y (.tail _ hy), hb y hy⟩, sortedRest⟩

/-- A merge keeps PQ sorted by (weight, index): the node it makes is younger than all others (R143, R146). -/
theorem merge_sorted (hpq : f.pq = a :: b :: rest) (sorted : f.pq.Pairwise (before f.nodes))
    (inTable : ∀ i ∈ f.pq, i.toNat < f.nodes.length) (room : f.nodes.length < 511) :
    f.merge.pq.Pairwise (before f.merge.nodes) := by
  have old (i : NodeIdx) (hi : i ∈ rest) : i.toNat < f.nodes.length := inTable i (by simp [hpq, hi])
  obtain ⟨-, -, sortedRest⟩ := first_two_least hpq sorted
  rw [merge_cons hpq]
  refine insertPq_sorted (sortedRest.imp_of_mem fun hy hz h => (before_append (old _ hy) (old _ hz)).2 h) fun y hy => ?_
  rw [BitVec.lt_def, toNat_ofNat_index (by omega)]
  exact old y hy

/-- Settles O31: Insert of a node younger than all of PQ keeps the order, and of a sorted PQ the first two are the least. -/
theorem mergeTakesTheTwoLeast : Obligations.MergeTakesTheTwoLeast := by
  refine ⟨fun leaves small => ⟨rfl, ofLeaves_pq_perm leaves, ofLeaves_sorted (small.le.trans (by decide))⟩, ?_⟩
  intro f a b rest hpq sorted inTable room
  obtain ⟨aFirst, least, -⟩ := first_two_least hpq sorted
  exact ⟨merge_nodes hpq, aFirst, least, merge_pq_perm hpq, merge_sorted hpq sorted inTable room⟩

end Sys2Proof.Safety

/-! SUPPORT. BUILD with an equation for each of its three cases, and the statements about it (42_treebuilder.md R140, R143 to
R147). -/

namespace Sys2Proof.Safety

open Sys2Proof.Machine

variable {s : State} {freq : Vector Data 256} {nodes more : List Node} {c : NodeIdx} {k : Nat} {f : Forest}

/-! ### The three cases of BUILD -/

theorem exec_build_of_ready (hi : s.phase = .idle) (he : s.err = false) (hf : s.fv = true) (ht : s.tv = false) :
    exec .build s = .next ((s.accept .build).built.respond respOk 0) := by
  rw [exec, execBuild, issued_of_pass (pass_build hi he hf ht), complete]

theorem built_of_none (h : makeLeaves s.freq = []) :
    s.built = { s with root := Config.nil, nodes := [], nsym := 0, shape := 0, tv := true } := by
  simp only [State.built, h]
  rfl

theorem built_of_one {l : Node} (h : makeLeaves s.freq = [l]) :
    s.built = { s with
      root := 1, nodes := [l, .internal l.w 0 Config.nil], nsym := 1, shape := 1, tv := true } := by
  simp only [State.built, h]
  rfl

theorem built_of_many (h : 2 ≤ distinct s.freq) :
    s.built = { s with
      root := (Forest.grown (makeLeaves s.freq)).pq.headD Config.nil, nodes := (Forest.grown (makeLeaves s.freq)).nodes
      nsym := BitVec.ofNat 9 (distinct s.freq), shape := 2, tv := true, pq := [] } := by
  match hm : makeLeaves s.freq with
  | [] => simp [← makeLeaves_length, hm] at h
  | [_] => simp [← makeLeaves_length, hm] at h
  | _ :: _ :: _ =>
    rw [← makeLeaves_length]
    simp only [State.built, hm]

theorem counted_replicate : counted (Vector.replicate 256 0) = [] := by simp [counted]

/-- A table with one nonzero count counts that symbol (R141). -/
theorem counted_setEntry (b : Byte) {w : Data} (hw : w ≠ 0) : counted (setEntry (Vector.replicate 256 0) b w) = [b] := by
  have only (a : Byte) : (entry (setEntry (Vector.replicate 256 0) b w) a != 0) = (a == b) := by
    by_cases h : a = b
    · simpa [h] using hw
    · simp [entry_setEntry_ne _ w h, h]
  simp only [counted, only]
  rw [List.filter_beq, List.count_eq_one_of_mem nodup_symbols (mem_symbols b), List.replicate_one]

/-- Settles O26: an all-zero table has no leaf. -/
theorem buildOfNoSymbolMakesNoTree : Obligations.BuildOfNoSymbolMakesNoTree := by
  intro s hi he hf ht hfreq
  have noLeaf : makeLeaves (s.accept .build).freq = [] := by
    rw [State.accept_freq, hfreq, makeLeaves_eq, counted_replicate, List.map_nil]
  rw [exec_build_of_ready hi he hf ht, built_of_none noLeaf]
  rfl

/-- Settles O27: a table with one nonzero count has one leaf, of that symbol and count. -/
theorem buildOfOneSymbolMakesASyntheticRoot : Obligations.BuildOfOneSymbolMakesASyntheticRoot := by
  intro s b w hi he hf ht hw hfreq
  have oneLeaf : makeLeaves (s.accept .build).freq = [.leaf b w] := by
    rw [State.accept_freq, hfreq, ← setEntry, makeLeaves_eq, counted_setEntry b hw, List.map_singleton,
      entry_setEntry_same]
  rw [exec_build_of_ready hi he hf ht, built_of_one oneLeaf]
  rfl

/-! ### What every merge keeps -/

/-- Entry `k` is what a merge makes of the entries below it: an Internal node of the summed weight over the two unmerged ones
that come first by (weight, index) (R143). -/
def MergedAt (nodes : List Node) (k : Nat) : Prop :=
  ∃ (a b : NodeIdx) (na nb : Node), nodes[k]? = some (.internal (na.w + nb.w) a b) ∧
    nodes[a.toNat]? = some na ∧ nodes[b.toNat]? = some nb ∧ unmerged nodes k a ∧ unmerged nodes k b ∧
    before nodes a b ∧ ∀ c, unmerged nodes k c → c = a ∨ c = b ∨ before nodes b c

theorem unmerged_append (hk : k ≤ nodes.length) : unmerged (nodes ++ more) k c ↔ unmerged nodes k c := by
  rw [unmerged, unmerged, List.take_append_of_le_length hk]

theorem unmerged_length : unmerged nodes nodes.length c ↔
    c.toNat < nodes.length ∧ ∀ n ∈ nodes, n.left ≠ c ∧ n.right ≠ c := by
  rw [unmerged, List.take_length]

theorem unmerged_concat {n : Node} : unmerged (nodes ++ [n]) (nodes.length + 1) c ↔
    c.toNat < nodes.length + 1 ∧ (∀ m ∈ nodes, m.left ≠ c ∧ m.right ≠ c) ∧ n.left ≠ c ∧ n.right ≠ c := by
  rw [← List.length_singleton (a := n), ← List.length_append, unmerged_length, List.forall_mem_append,
    List.forall_mem_singleton]

/-- What a merge made stays so in a longer table. -/
theorem MergedAt.append (h : MergedAt nodes k) (more : List Node) : MergedAt (nodes ++ more) k := by
  obtain ⟨a, b, na, nb, hk, ha, hb, freeA, freeB, order, least⟩ := h
  have hlt := (List.getElem?_eq_some_iff.1 hk).1
  have old {i : NodeIdx} (hi : unmerged nodes k i) : i.toNat < nodes.length := hi.1.trans hlt
  refine ⟨a, b, na, nb, ?_, ?_, ?_, (unmerged_append hlt.le).2 freeA, (unmerged_append hlt.le).2 freeB,
    (before_append (old freeA) (old freeB)).2 order, fun c hc => ?_⟩
  · rwa [List.getElem?_append_left hlt]
  · rwa [List.getElem?_append_left (old freeA)]
  · rwa [List.getElem?_append_left (old freeB)]
  · have hc := (unmerged_append hlt.le).1 hc
    exact (least c hc).imp_right (Or.imp_right (before_append (old freeB) (old hc)).2)

/-- What holds of NODE and PQ after every merge, beginning with the leaves. PQ holds the unmerged nodes in the order of
extraction, and the last entry and the one to come have no parent yet. -/
structure Merging (leaves : List Node) (f : Forest) : Prop where
  leavesFirst : leaves <+: f.nodes
  merged : ∀ k, leaves.length ≤ k → k < f.nodes.length → MergedAt f.nodes k
  sorted : f.pq.Pairwise (before f.nodes)
  waiting : ∀ c, c ∈ f.pq ↔ unmerged f.nodes f.nodes.length c
  newest : ∀ c, c ≠ Config.nil → f.nodes.length ≤ c.toNat + 1 → ∀ n ∈ f.nodes, n.left ≠ c ∧ n.right ≠ c
  fits : f.nodes.length + f.pq.length ≤ 512

theorem merging_ofLeaves {leaves : List Node} (noChild : ∀ n ∈ leaves, ∀ c ≠ Config.nil, n.left ≠ c ∧ n.right ≠ c)
    (few : leaves.length ≤ 256) : Merging leaves (Forest.ofLeaves leaves) where
  leavesFirst := List.prefix_rfl
  merged k hk hk' := absurd hk' (Nat.not_lt.2 hk)
  sorted := ofLeaves_sorted (few.trans (by decide))
  waiting c := by
    rw [(ofLeaves_pq_perm leaves).mem_iff, ← indexRange, mem_indexRange (by omega)]
    show _ ↔ unmerged leaves leaves.length c
    rw [unmerged_length]
    exact ⟨fun hc => ⟨hc, fun n hn => noChild n hn c (ne_nil_of_lt (by omega))⟩, And.left⟩
  newest c hc _ n hn := noChild n hn c hc
  fits := by
    rw [ofLeaves_pq_length]
    show leaves.length + leaves.length ≤ 512
    omega

section Merge
variable {leaves : List Node} {a b : NodeIdx} {rest : List NodeIdx}

theorem Merging.lt (h : Merging leaves f) (hc : c ∈ f.pq) : c.toNat < f.nodes.length := ((h.waiting c).1 hc).1

/-- The two nodes a merge takes are none of those to come. -/
theorem Merging.children_ne (h : Merging leaves f) (hpq : f.pq = a :: b :: rest) (hc : f.nodes.length ≤ c.toNat) :
    a ≠ c ∧ b ≠ c := by
  have old : c ∉ f.pq := fun hm => absurd (h.lt hm) (Nat.not_lt.2 hc)
  rw [hpq, List.mem_cons, List.mem_cons, not_or, not_or] at old
  obtain ⟨ha, hb, -⟩ := old
  exact ⟨Ne.symm ha, Ne.symm hb⟩

theorem Merging.room (h : Merging leaves f) (hpq : f.pq = a :: b :: rest) : f.nodes.length < 511 := by
  have := h.fits
  rw [hpq, List.length_cons, List.length_cons] at this
  omega

/-- The first two of PQ become an entry as R143 has it. -/
theorem Merging.mergedAt_new (h : Merging leaves f) (hpq : f.pq = a :: b :: rest) :
    MergedAt f.merge.nodes f.nodes.length := by
  have ha : a ∈ f.pq := by simp [hpq]
  have hb : b ∈ f.pq := by simp [hpq]
  obtain ⟨na, hna⟩ := nodeAt_of_lt (h.lt ha)
  obtain ⟨nb, hnb⟩ := nodeAt_of_lt (h.lt hb)
  obtain ⟨aFirst, least, -⟩ := first_two_least hpq h.sorted
  have waiting (c : NodeIdx) : unmerged f.merge.nodes f.nodes.length c ↔ c ∈ f.pq := by
    rw [merge_nodes hpq, unmerged_append le_rfl, h.waiting]
  refine ⟨a, b, na, nb, ?_, ?_, ?_, (waiting a).2 ha, (waiting b).2 hb, ?_, fun c hc => ?_⟩
  · rw [merge_nodes hpq, List.getElem?_concat_length, weightAt, weightAt, hna, hnb]
  · rw [merge_getElem? _ (h.lt ha)]
    exact hna
  · rw [merge_getElem? _ (h.lt hb)]
    exact hnb
  · rw [merge_nodes hpq, before_append (h.lt ha) (h.lt hb)]
    exact aFirst
  · have hc := (waiting c).1 hc
    rw [merge_nodes hpq, before_append (h.lt hb) (h.lt hc)]
    rw [hpq, List.mem_cons, List.mem_cons] at hc
    exact hc.imp_right (Or.imp_right fun hr => (least c hr).2)

/-- A merge takes the first two from the unmerged nodes and adds the new one (R143). -/
theorem Merging.unmerged_merge (h : Merging leaves f) (hpq : f.pq = a :: b :: rest) (c : NodeIdx) :
    unmerged f.merge.nodes f.merge.nodes.length c ↔ c = BitVec.ofNat 9 f.nodes.length ∨ c ∈ rest := by
  have room := h.room hpq
  have hnew := toNat_ofNat_index (n := f.nodes.length) (by omega)
  obtain ⟨aFirst, least, -⟩ := first_two_least hpq h.sorted
  rw [merge_nodes hpq, List.length_append, List.length_singleton, unmerged_concat]
  constructor
  · rintro ⟨hc, free, freshA, freshB⟩
    rcases Nat.lt_or_eq_of_le (Nat.lt_succ_iff.1 hc) with old | last
    · have := (h.waiting c).2 (unmerged_length.2 ⟨old, free⟩)
      rw [hpq, List.mem_cons, List.mem_cons] at this
      exact .inr ((this.resolve_left freshA.symm).resolve_left freshB.symm)
    · exact .inl (BitVec.eq_of_toNat_eq (last.trans hnew.symm))
  · rintro (rfl | hc)
    · exact ⟨by omega, h.newest _ (ne_nil_of_lt (by omega)) (by omega), h.children_ne hpq hnew.ge⟩
    · obtain ⟨old, free⟩ := unmerged_length.1 ((h.waiting c).1 (by simp [hpq, hc]))
      refine ⟨by omega, free, ?_, ?_⟩ <;> rintro rfl
      · exact before_irrefl _ _ (least _ hc).1
      · exact before_irrefl _ _ (least _ hc).2

theorem Merging.merge (h : Merging leaves f) (hpq : f.pq = a :: b :: rest) : Merging leaves f.merge where
  leavesFirst := h.leavesFirst.trans (merge_nodes hpq ▸ List.prefix_append _ _)
  merged k hk hk' := by
    have := (length_merge (f := f) (by simp [hpq])).1
    rcases Nat.lt_or_eq_of_le (Nat.lt_succ_iff.1 (this ▸ hk')) with old | rfl
    · exact merge_nodes hpq ▸ (h.merged k hk old).append _
    · exact h.mergedAt_new hpq
  sorted := merge_sorted hpq h.sorted (fun _ => h.lt) (h.room hpq)
  waiting c := by
    rw [(merge_pq_perm hpq).mem_iff, List.mem_cons, h.unmerged_merge hpq]
  newest c hc hlast n hn := by
    rw [(length_merge (f := f) (by simp [hpq])).1] at hlast
    rw [merge_nodes hpq] at hn
    rcases List.mem_append.1 hn with old | new
    · exact h.newest c hc (by omega) n old
    · obtain rfl := List.mem_singleton.1 new
      exact h.children_ne hpq (by omega)
  fits := by
    obtain ⟨hn, hq⟩ := length_merge (f := f) (by simp [hpq])
    have := h.fits
    omega

end Merge

/-- The leaves grow to a table and a PQ that the merges made (R140). -/
theorem merging_grown (freq : Vector Data 256) : Merging (makeLeaves freq) (Forest.grown (makeLeaves freq)) := by
  refine grown_keeps (fun f h hl => ?_) (merging_ofLeaves (fun n hn c hc => ?_) (makeLeaves_length freq ▸ distinct_le freq))
  · match hpq : f.pq with
    | [] => simp [hpq] at hl
    | [_] => simp [hpq] at hl
    | a :: b :: rest => exact h.merge hpq
  · obtain ⟨b, -, rfl⟩ := List.mem_map.1 hn
    exact ⟨hc.symm, hc.symm⟩

/-- The one node left in PQ is the last one made (R147). -/
theorem Merging.pq_of_length_one {leaves : List Node} (h : Merging leaves f) (one : f.pq.length = 1) :
    f.pq = [BitVec.ofNat 9 (f.nodes.length - 1)] := by
  obtain ⟨r, hr⟩ := List.length_eq_one_iff.1 one
  have fits := h.fits
  have pos : 0 < f.nodes.length := Nat.zero_lt_of_lt (h.lt (c := r) (by simp [hr]))
  have last := toNat_ofNat_index (n := f.nodes.length - 1) (by omega)
  have waits : BitVec.ofNat 9 (f.nodes.length - 1) ∈ f.pq :=
    (h.waiting _).2 (unmerged_length.2 ⟨by omega, h.newest _ (ne_nil_of_lt (by omega)) (by omega)⟩)
  rw [hr, List.mem_singleton] at waits
  rw [hr, waits]

/-- Settles O28: the merges keep `Merging`, which says all of the table they make. -/
theorem buildCountsItsNodes : Obligations.BuildCountsItsNodes := by
  intro s hi he hf ht two
  have merging := merging_grown s.freq
  have leaves : makeLeaves s.freq ≠ [] := List.ne_nil_of_length_pos (by rw [makeLeaves_length]; omega)
  obtain ⟨one, count⟩ := grown_length leaves
  have pq := merging.pq_of_length_one one
  rw [makeLeaves_length] at count
  have length : (Forest.grown (makeLeaves s.freq)).nodes.length = 2 * distinct s.freq - 1 := by omega
  rw [length, Nat.sub_sub] at pq
  have built := built_of_many (s := s.accept .build) two
  rw [State.accept_freq, pq, List.headD_cons] at built
  rw [exec_build_of_ready hi he hf ht, built]
  refine ⟨_, rfl, rfl, length, ?_, fun k hk hk' => ?_, ?_⟩
  · rw [← makeLeaves_length]
    exact (List.prefix_iff_eq_take.1 merging.leavesFirst).symm
  · exact merging.merged k (makeLeaves_length s.freq ▸ hk) (length ▸ hk')
  · exact congrArg (Forest.mk _) pq

end Sys2Proof.Safety

/-! SUPPORT. GEN on a tree the NODE table holds: the statement about its whole next state (43_codebook.md R160 to R165). -/

namespace Sys2Proof.Safety

open Sys2Proof.Machine

/-- Settles O32: GEN passes its checks (`pass_gen`), and on a held tree its next state is the accepted state with the code
table of the tree's codes, BV and a response of OK (`exec_gen_of_held`); that state's own PATH and DEPTH are the free values. -/
theorem genAssignsThePaths : Obligations.GenAssignsThePaths := by
  intro s h idle noErr tree noBook held shallow
  obtain ⟨walked, next⟩ := exec_gen_of_held (pass_gen idle noErr tree noBook) held shallow
  let t := (s.accept .gen).generated (codeTable h.codes) walked
  exact ⟨t.path, t.depth, t.draws, next⟩

end Sys2Proof.Safety

/-! SUPPORT. TDES one GetByte at a time, and the errors it raises at a tag (44_treecodec.md R177, R178). -/

namespace Sys2Proof.Machine

variable {s : State} {rest : List Item} {stack : List DesFrame}

/-! ### GetByte (R178) -/

theorem getByte_byte {b : Byte} (hq : s.inq = .byte b :: rest) (k : Byte → State → Result) :
    getByte s k = k b (s.popped (.byte b) rest) := inPop_byte hq

theorem getByte_eos (hq : s.inq = .eos :: rest) (k : Byte → State → Result) :
    getByte s k = .next ((s.popped .eos rest).raise .truncatedTree) := inPop_eos hq

/-! ### A tag: its value first, then the capacity (R274 c) -/

theorem micro_desTag_badTag {t : Byte} (hp : s.phase = .desTag stack) (hq : s.inq = .byte t :: rest) (h0 : t ≠ 0x00)
    (h1 : t ≠ 0x01) : micro s = .next ((s.popped (.byte t) rest).raise .badTag) := by
  rw [micro_desTag hp, desTagMicro, getByte_byte hq, if_pos ⟨h0, h1⟩]

theorem micro_desTag_tableFull {t : Byte} (hp : s.phase = .desTag stack) (hq : s.inq = .byte t :: rest)
    (ht : t = 0x00 ∨ t = 0x01) (full : s.nodes.length = 511) :
    micro s = .next ((s.popped (.byte t) rest).raise .tableFull) := by
  have tag : ¬(t ≠ 0x00 ∧ t ≠ 0x01) := fun ⟨h0, h1⟩ => ht.elim h0 h1
  rw [micro_desTag hp, desTagMicro, getByte_byte hq, if_neg tag]
  exact if_pos full

theorem micro_desTag_leaf (hp : s.phase = .desTag stack) (hq : s.inq = .byte 0x00 :: rest) (room : s.nodes.length ≠ 511) :
    micro s = .next { s.popped (.byte 0x00) rest with phase := .desSym stack } := by
  rw [micro_desTag hp, desTagMicro, getByte_byte hq, if_neg (by decide)]
  exact if_neg room

theorem micro_desTag_internal (hp : s.phase = .desTag stack) (hq : s.inq = .byte 0x01 :: rest)
    (room : s.nodes.length ≠ 511) :
    micro s = .next { (s.popped (.byte 0x01) rest).allocated (.internal 0 Config.nil Config.nil) with
      phase := .desTag (.left (BitVec.ofNat 9 s.nodes.length) :: stack) } := by
  rw [micro_desTag hp, desTagMicro, getByte_byte hq, if_neg (by decide)]
  exact if_neg room

theorem micro_desRoot_notInternal {t : Byte} (hp : s.phase = .desRoot) (hq : s.inq = .byte t :: rest) (h1 : t ≠ 0x01) :
    micro s = .next ((s.popped (.byte t) rest).raise .rootNotInternal) := by
  rw [micro_desRoot hp, desRootMicro, getByte_byte hq, if_pos h1]

theorem micro_desRoot_internal (hp : s.phase = .desRoot) (hq : s.inq = .byte 0x01 :: rest) :
    micro s = .next { (s.popped (.byte 0x01) rest).allocated (.internal 0 Config.nil Config.nil) with
      phase := .desTag [.lone] } := by
  rw [micro_desRoot hp, desRootMicro, getByte_byte hq]
  exact if_neg (by decide)

theorem micro_desSym_byte {b : Byte} (hp : s.phase = .desSym stack) (hq : s.inq = .byte b :: rest) :
    micro s = .next (desReturn (BitVec.ofNat 9 s.nodes.length) stack
      { (s.popped (.byte b) rest).allocated (.leaf b 0) with nsym := s.nsym + 1 }) := by
  rw [micro_desSym hp, desSymMicro, getByte_byte hq]
  rfl

/-- At every GetByte of TDES an EOS means that the tree is cut short (R178). -/
theorem micro_eos_of_reading (hp : (∃ stack, s.phase = .desTag stack ∨ s.phase = .desSym stack) ∨ s.phase = .desRoot)
    (hq : s.inq = .eos :: rest) : micro s = .next ((s.popped .eos rest).raise .truncatedTree) := by
  rcases hp with ⟨stack, hp | hp⟩ | hp
  · rw [micro_desTag hp, desTagMicro, getByte_eos hq]
  · rw [micro_desSym hp, desSymMicro, getByte_eos hq]
  · rw [micro_desRoot hp, desRootMicro, getByte_eos hq]

/-- Settles O37: with no host move to come the step is the micro-step, and each clause is the error that micro-step raises. -/
theorem tdesErrorsInOrder : Obligations.TdesErrorsInOrder := by
  intro s rest hm
  rw [step_of_no_move hm]
  exact ⟨fun _ _ hp hq h0 h1 => micro_desTag_badTag hp hq h0 h1,
    fun _ _ hp hq ht full => micro_desTag_tableFull hp hq ht full,
    fun _ hp hq h1 => micro_desRoot_notInternal hp hq h1,
    fun hp hq => micro_eos_of_reading hp hq⟩

end Sys2Proof.Machine

/-! SUPPORT. The entries TDES makes of a tree (44_treecodec.md R177): how many they are, that they hold the tree, and the
length of the tree's serialized form (R175). -/

namespace Sys2Proof.Safety

open Sys2Proof.Machine

@[simp] theorem length_layout (t : Tree) (base : Nat) : (t.layout base).length = t.size := by
  induction t generalizing base with
  | leaf sym => rfl
  | node l r ihl ihr =>
    rw [Tree.layout, List.length_cons, List.length_append, ihl, ihr, Tree.size]
    omega

theorem nodeAt_middle {pre : List Node} (h : pre.length < 512) (n : Node) (post : List Node) :
    nodeAt (pre ++ n :: post) (BitVec.ofNat 9 pre.length) = some n := by
  simp [nodeAt, toNat_ofNat_index h]

theorem heldAt_layout (t : Tree) (pre post : List Node) (fits : pre.length + t.size ≤ 511) :
    t.heldAt (pre ++ t.layout pre.length ++ post) (BitVec.ofNat 9 pre.length) = true := by
  induction t generalizing pre post with
  | leaf sym =>
    rw [Tree.size] at fits
    rw [Tree.layout, List.append_assoc]
    exact heldAt_leaf.2 ⟨0, nodeAt_middle (by omega) _ _⟩
  | node l r ihl ihr =>
    rw [Tree.size] at fits
    have := size_add_one r
    rw [Tree.layout, List.append_assoc]
    have inTable {k : Nat} (hk : k < 511) : BitVec.ofNat 9 k ≠ Config.nil :=
      ne_nil_of_lt (by rwa [toNat_ofNat_index (by omega)])
    refine heldAt_node.2 ⟨0, _, _, nodeAt_middle (by omega) _ _, inTable (by omega), inTable (by omega), ?_, ?_⟩ <;>
      generalize Node.internal 0 _ _ = n
    · simpa using ihl (pre ++ [n]) (r.layout (pre.length + 1 + l.size) ++ post) (by simp; omega)
    · simpa [Nat.add_assoc, Nat.add_comm l.size 1] using ihr (pre ++ n :: l.layout (pre.length + 1)) post (by simp; omega)

theorem zero_ne_nil : (0 : NodeIdx) ≠ Config.nil := by decide

/-- What TDES makes of a tree that fits the table holds that tree (R177, R181). -/
theorem shaped_heldAt_layout (h : Shaped) (fits : h.size ≤ 511) : h.heldAt h.layout h.root = true := by
  cases h with
  | empty => rfl
  | lone t =>
    rw [Shaped.size] at fits
    have held := heldAt_layout t [.internal 0 1 Config.nil] [] (by simpa using fits)
    rw [List.append_nil] at held
    exact heldAt_lone.2 ⟨zero_ne_nil, 0, 1, rfl, by decide, held⟩
  | full t =>
    have held := heldAt_layout t [] [] (by simpa [Shaped.size] using fits)
    rw [List.append_nil] at held
    exact heldAt_full.2 ⟨zero_ne_nil, held⟩

/-- Two bytes for a Leaf, one for an Internal node (R175). -/
theorem length_bytes (t : Tree) : t.bytes.length = t.size + t.leafCount := by
  induction t with
  | leaf sym => rfl
  | node l r ihl ihr =>
    rw [Tree.bytes, List.length_cons, List.length_append, ihl, ihr, Tree.size, Tree.leafCount]
    omega

/-- A tree that fits the table takes at most 1022 bytes (R175, R181). -/
theorem length_shaped_bytes_le {h : Shaped} (fits : h.size ≤ 511) : h.bytes.length ≤ 1022 := by
  cases h with
  | empty => exact Nat.zero_le _
  | lone t =>
    have := size_add_one t
    rw [Shaped.size] at fits
    rw [Shaped.bytes, List.length_cons, length_bytes]
    omega
  | full t =>
    have := size_add_one t
    rw [Shaped.size] at fits
    rw [Shaped.bytes, length_bytes]
    omega

theorem shape_ne_three (h : Shaped) : h.shape ≠ 3 := by
  cases h <;> simp [Shaped.shape]

end Sys2Proof.Safety

/-! SUPPORT. The state after the sink took some bytes (20_memory.md R68), and TSER, which writes a tree as a sequence of such
bytes (44_treecodec.md R176). -/

namespace Sys2Proof.Machine

open Sys2Proof.Safety

variable {s : State} {n : Nat}

/-- Of a state that already reads BUSY = 0, completing changes the response channel only (R8, R22). -/
theorem finish_of_idle (hp : s.phase = .idle) : s.finish = s.respond respOk 0 := by
  rw [State.finish, ← hp]

/-! ### Bytes the sink took -/

/-- The state after the sink took these bytes, one after the other. -/
def State.wrote (s : State) (out : List Byte) : State := out.foldl State.pushed s

@[simp] theorem wrote_nil (s : State) : s.wrote [] = s := rfl

@[simp] theorem wrote_cons (s : State) (b : Byte) (out : List Byte) : s.wrote (b :: out) = (s.pushed b).wrote out := rfl

theorem wrote_append (s : State) (out more : List Byte) : s.wrote (out ++ more) = (s.wrote out).wrote more :=
  List.foldl_append

theorem wrote_eq (s : State) (out : List Byte) :
    s.wrote out = { s with
      outq := s.outq ++ out, outcnt := s.outcnt + BitVec.ofNat 64 out.length
      sinkAnswers := s.sinkAnswers.drop out.length } := by
  induction out generalizing s with
  | nil => simp
  | cons b out ih =>
    rw [wrote_cons, ih, List.length_cons, Nat.add_comm, BitVec.ofNat_add, ← BitVec.add_assoc, Nat.add_comm,
      ← List.drop_tail, List.append_cons]
    rfl

@[simp] theorem wrote_nodes (s : State) (out : List Byte) : (s.wrote out).nodes = s.nodes := by rw [wrote_eq]

/-! ### What the sink will answer -/

/-- Every one of the next `n` answers is ok, whether it stands in the list or is what the sink says after it (R68). -/
theorem sinkTakes_iff : sinkTakes n s = true ↔ ∀ k < n, s.sinkAnswers[k]?.or s.sinkThen = some .ok := by
  simp only [sinkTakes, Bool.and_eq_true, Bool.or_eq_true, decide_eq_true_eq, beq_iff_eq, List.all_eq_true]
  constructor
  · intro ⟨listed, last⟩ k hk
    by_cases h : k < s.sinkAnswers.length
    · rw [List.getElem?_eq_getElem h, listed _ (List.mem_take_iff_getElem.2 ⟨k, by omega, rfl⟩), Option.some_or]
    · rw [List.getElem?_eq_none (by omega), Option.none_or, last.resolve_left (by omega)]
  · refine fun h => ⟨fun a ha => ?_, ?_⟩
    · obtain ⟨k, hk, rfl⟩ := List.mem_take_iff_getElem.1 ha
      simpa [List.getElem?_eq_getElem (show k < s.sinkAnswers.length by omega)] using h k (by omega)
    · by_cases hn : n ≤ s.sinkAnswers.length
      · exact .inl hn
      · exact .inr (by simpa using h s.sinkAnswers.length (by omega))

theorem sinkTakes_le {m : Nat} (h : sinkTakes m s = true) (hn : n ≤ m) : sinkTakes n s = true :=
  sinkTakes_iff.2 fun k hk => sinkTakes_iff.1 h k (by omega)

theorem nextAnswer_of_sinkTakes (h : sinkTakes (n + 1) s = true) : s.nextAnswer = some .ok := by
  have first := sinkTakes_iff.1 h 0 (by omega)
  rw [State.nextAnswer]
  cases ha : s.sinkAnswers <;> simpa [ha] using first

theorem sinkTakes_wrote {out : List Byte} (h : sinkTakes (out.length + n) s = true) :
    sinkTakes n (s.wrote out) = true := by
  rw [wrote_eq]
  exact sinkTakes_iff.2 fun k hk => by simpa using sinkTakes_iff.1 h (out.length + k) (by omega)

/-! ### TSER -/

theorem serGoOn_withPhase (todo : List SerWork) (s : State) (p : Phase) :
    serGoOn todo { s with phase := p } = serGoOn todo s := by
  cases todo <;> rfl

@[simp] theorem nextAnswer_serGoOn (todo : List SerWork) (s : State) : (serGoOn todo s).nextAnswer = s.nextAnswer := by
  cases todo <;> rfl

@[simp] theorem serGoOn_pace (todo : List SerWork) (s : State) : (serGoOn todo s).pace = s.pace := by
  cases todo <;> rfl

/-- While TSER has something to write, the sink's answer is all that a micro-step waits for. -/
theorem enabled_serGoOn (w : SerWork) (todo : List SerWork) (s : State) :
    (serGoOn (w :: todo) s).enabled = s.nextAnswer.isSome := rfl

/-- One micro-step of TSER, told by the OutPush that it is: the byte is written and the next work taken up. -/
theorem runMicro_serGoOn_cons {b : Byte} {w : SerWork} {todo next : List SerWork} (takes : s.nextAnswer = some .ok)
    (push : ∀ u : State, u.nodes = s.nodes → serMicro (w :: todo) u = outPush b u fun u => .next (serGoOn next u))
    (n : Nat) : runMicro (n + 1) (serGoOn (w :: todo) s) = runMicro n (serGoOn next (s.pushed b)) := by
  have enabled : (serGoOn (w :: todo) s).enabled = true := by rw [enabled_serGoOn, takes, Option.isSome_some]
  have step : micro (serGoOn (w :: todo) s) = outPush b (serGoOn (w :: todo) s) fun u => .next (serGoOn next u) :=
    (micro_serPush rfl).trans (push _ rfl)
  rw [runMicro_enabled enabled, step, outPush_ok (by simpa using takes), andThen_next]
  exact congrArg (runMicro n) (serGoOn_withPhase next (s.pushed b) _)

end Sys2Proof.Machine

namespace Sys2Proof.Safety

open Sys2Proof.Machine

variable {s : State} {n : Nat}

/-- TSER writes the bytes of a held tree and goes on with what comes after it (R176). -/
theorem runMicro_serGoOn_tree (t : Tree) {i : NodeIdx} (held : t.heldAt s.nodes i = true) {todo : List SerWork}
    (takes : sinkTakes t.bytes.length s = true) (n : Nat) :
    runMicro (t.bytes.length + n) (serGoOn (.node i :: todo) s) = runMicro n (serGoOn todo (s.wrote t.bytes)) := by
  induction t generalizing s i todo n with
  | leaf sym =>
    obtain ⟨w, hi⟩ := heldAt_leaf.1 held
    have tag := nextAnswer_of_sinkTakes (n := 1) takes
    have symbol := nextAnswer_of_sinkTakes (n := 0) (sinkTakes_wrote (n := 1) (out := [0x00]) takes)
    calc runMicro (2 + n) (serGoOn (.node i :: todo) s)
      _ = runMicro (n + 1) (serGoOn (.sym sym :: todo) (s.pushed 0x00)) := by
        rw [show 2 + n = n + 1 + 1 by omega, runMicro_serGoOn_cons tag fun u hu => by rw [serMicro, hu, hi]]
      _ = runMicro n (serGoOn todo (s.wrote [0x00, sym])) := runMicro_serGoOn_cons symbol (fun _ _ => rfl) n
  | node l r ihl ihr =>
    obtain ⟨w, a, b, hi, ha, hb, hl, hr⟩ := heldAt_node.1 held
    simp only [Tree.bytes, List.length_cons, List.length_append] at takes ⊢
    have tag := nextAnswer_of_sinkTakes takes
    rw [Nat.add_right_comm, runMicro_serGoOn_cons tag fun u hu => by rw [serMicro, hu, hi]]
    have takesl : sinkTakes (l.bytes.length + r.bytes.length) (s.pushed 0x01) = true :=
      sinkTakes_wrote (out := [0x01]) (by rwa [Nat.add_comm])
    simp only [serChild, ha, hb, if_false, List.cons_append, List.nil_append]
    rw [Nat.add_assoc, ihl (s := s.pushed 0x01) hl (sinkTakes_le takesl (Nat.le_add_right _ _)),
      ihr (by simpa using hr) (sinkTakes_wrote takesl), ← wrote_append]
    rfl

/-- TSER writes the bytes of the tree that NODE and ROOT hold and completes (R175, R176). -/
theorem runMicro_serGoOn_root (h : Shaped) (held : h.heldAt s.nodes s.root = true)
    (takes : sinkTakes h.bytes.length s = true) (pace : h.bytes.length ≤ n) :
    runMicro n (serGoOn (serChild s.root) s) = .next (s.wrote h.bytes).finish := by
  obtain ⟨n, rfl⟩ := Nat.exists_eq_add_of_le pace
  cases h with
  | empty =>
    have noTree : s.root = Config.nil := by simpa [Shaped.heldAt] using held
    rw [serChild, if_pos noTree]
    exact runMicro_idle rfl _
  | lone t =>
    obtain ⟨hroot, w, a, hi, ha, ht⟩ := heldAt_lone.1 held
    simp only [Shaped.bytes, List.length_cons] at takes ⊢
    rw [serChild, if_neg hroot, Nat.add_right_comm,
      runMicro_serGoOn_cons (nextAnswer_of_sinkTakes takes) fun u hu => by rw [serMicro, hu, hi]]
    have takes' : sinkTakes t.bytes.length (s.pushed 0x01) = true :=
      sinkTakes_wrote (out := [0x01]) (by rwa [Nat.add_comm])
    simp only [serChild, ha, if_false, if_true, List.append_nil]
    rw [runMicro_serGoOn_tree (s := s.pushed 0x01) t ht takes']
    exact runMicro_idle rfl _
  | full t =>
    obtain ⟨hroot, ht⟩ := heldAt_full.1 held
    rw [serChild, if_neg hroot]
    exact (runMicro_serGoOn_tree t ht takes n).trans (runMicro_idle rfl _)

/-- TSER, once accepted, with a sink that takes the whole tree and the pace to write it. -/
theorem exec_tser_of_held {h : Shaped} (hc : checks .tser s = none) (held : h.heldAt s.nodes s.root = true)
    (takes : sinkTakes h.bytes.length s = true) (pace : h.bytes.length ≤ s.pace) :
    exec .tser s = .next ((s.accept .tser).wrote h.bytes).finish := by
  rw [exec, execTser, issued_of_pass hc, goOn, serGoOn_pace]
  exact runMicro_serGoOn_root h held takes pace

/-- Settles O35: the accepted TSER writes the tree's bytes (`exec_tser_of_held`), and `wrote_eq` says what that changes. -/
theorem tserWritesTheTree : Obligations.TserWritesTheTree := by
  intro s h hp he ht held takes pace
  rw [exec_tser_of_held (pass_tser hp he ht) held takes pace, wrote_eq]
  have counted : (s.accept .tser).outcnt + BitVec.ofNat 64 h.bytes.length = BitVec.ofNat 64 h.bytes.length :=
    BitVec.zero_add _
  rw [counted, finish_of_idle (by exact hp)]
  rfl

end Sys2Proof.Safety

/-! SUPPORT. TDES byte by byte: the serialized form of a subtree is read into the subtree's layout behind the entries that are
already there, and returned to the innermost unfinished call (44_treecodec.md R177). -/

namespace Sys2Proof.Machine

variable {s t : State} {n k leaves : Nat} {rest : List Item} {nodes : List Node} {stack : List DesFrame}

/-! ### One micro-step -/

/-- At an InPop an item in INQ is all that a micro-step waits for. -/
theorem enabled_of_atPop {it : Item} (hp : AtPop s) (hq : s.inq = it :: rest) : s.enabled = true := by
  rcases hp with hp | ⟨stack, hp | hp⟩
  · simp only [List.mem_cons, List.not_mem_nil, or_false] at hp
    rcases hp with hp | hp | hp | hp <;> simp [State.enabled, hp, hq]
  all_goals simp [State.enabled, hp, hq]

theorem runMicro_next (he : s.enabled = true) (hm : micro s = .next t) (n : Nat) : runMicro (n + 1) s = runMicro n t := by
  rw [runMicro_enabled he, hm, andThen_next]

/-! ### TDES -/

/-- TDES, accepted in state `s`, at a point of its run: `k` bytes are popped and `rest` is what INQ still holds; `nodes` are the
entries so far, `leaves` of them Leaf entries (R177). -/
def State.reading (s : State) (phase : Phase) (k : Nat) (rest : List Item) (nodes : List Node) (leaves : Nat) : State :=
  { s with
    phase := phase, incnt := BitVec.ofNat 64 k, inq := rest, nodes := nodes, nsym := BitVec.ofNat 9 leaves }

theorem popped_reading (s : State) (phase : Phase) (b : Byte) :
    (s.reading phase k (.byte b :: rest) nodes leaves).popped (.byte b) rest =
      s.reading phase (k + 1) rest nodes leaves := by
  rw [State.reading, State.reading, BitVec.ofNat_add]
  rfl

/-- Where Des() returns to depends on the unfinished calls, not on the point it returns from. -/
theorem desReturn_reading_phase (r : NodeIdx) (stack : List DesFrame) (s : State) (phase phase' : Phase) :
    desReturn r stack (s.reading phase k rest nodes leaves) = desReturn r stack (s.reading phase' k rest nodes leaves) := by
  induction stack generalizing r nodes with
  | nil => rfl
  | cons f stack ih =>
    cases f with
    | lone => rfl
    | left i => rfl
    | right i => exact ih i

theorem runMicro_reading_tagLeaf (s : State) (room : nodes.length ≠ 511) (n : Nat) :
    runMicro (n + 1) (s.reading (.desTag stack) k (.byte 0x00 :: rest) nodes leaves) =
      runMicro n (s.reading (.desSym stack) (k + 1) rest nodes leaves) := by
  rw [runMicro_next (enabled_of_atPop (.inr ⟨stack, .inl rfl⟩) rfl) (micro_desTag_leaf rfl rfl room), popped_reading]
  rfl

theorem runMicro_reading_tagInternal (s : State) (room : nodes.length ≠ 511) (n : Nat) :
    runMicro (n + 1) (s.reading (.desTag stack) k (.byte 0x01 :: rest) nodes leaves) =
      runMicro n (s.reading (.desTag (.left (BitVec.ofNat 9 nodes.length) :: stack)) (k + 1) rest
        (nodes ++ [.internal 0 Config.nil Config.nil]) leaves) := by
  rw [runMicro_next (enabled_of_atPop (.inr ⟨stack, .inl rfl⟩) rfl) (micro_desTag_internal rfl rfl room), popped_reading]
  rfl

/-- One more Leaf is one more symbol (R177). -/
theorem reading_leaf_succ (s : State) (phase : Phase) :
    s.reading phase k rest nodes (leaves + 1) =
      { s.reading phase k rest nodes leaves with nsym := BitVec.ofNat 9 leaves + 1 } := by
  rw [State.reading, State.reading, BitVec.ofNat_add]
  rfl

theorem runMicro_reading_sym (s : State) (b : Byte) (n : Nat) :
    runMicro (n + 1) (s.reading (.desSym stack) k (.byte b :: rest) nodes leaves) =
      runMicro n (desReturn (BitVec.ofNat 9 nodes.length) stack
        (s.reading .idle (k + 1) rest (nodes ++ [.leaf b 0]) (leaves + 1))) := by
  rw [runMicro_next (enabled_of_atPop (.inr ⟨stack, .inr rfl⟩) rfl) (micro_desSym_byte rfl rfl), popped_reading,
    desReturn_reading_phase _ stack s .idle (.desSym stack), reading_leaf_succ]
  rfl

theorem runMicro_reading_rootInternal (s : State) (n : Nat) :
    runMicro (n + 1) (s.reading .desRoot k (.byte 0x01 :: rest) nodes leaves) =
      runMicro n (s.reading (.desTag [.lone]) (k + 1) rest (nodes ++ [.internal 0 Config.nil Config.nil]) leaves) := by
  rw [runMicro_next (enabled_of_atPop (.inl (by simp [State.reading])) rfl) (micro_desRoot_internal rfl rfl), popped_reading]
  rfl

/-- Before the first byte (R177). -/
theorem reading_start (zero : s.incnt = 0) (phase : Phase) :
    s.reading phase 0 s.inq [] 0 = { s with nodes := [], nsym := 0, phase := phase } := by
  rw [State.reading, show BitVec.ofNat 64 0 = s.incnt from zero.symm]
  rfl

theorem desStart_zero (zero : s.incnt = 0) :
    s.desStart 0 = (s.reading .idle 0 s.inq [] 0).treeRead Config.nil 0 := by
  rw [reading_start zero]
  rfl

theorem desStart_one (zero : s.incnt = 0) : s.desStart 1 = s.reading .desRoot 0 s.inq [] 0 := by
  rw [reading_start zero]
  rfl

theorem desStart_two (zero : s.incnt = 0) : s.desStart 2 = s.reading (.desTag []) 0 s.inq [] 0 := by
  rw [reading_start zero]
  rfl

theorem modify_middle {α : Type} (front back : List α) (x : α) (f : α → α) :
    (front ++ x :: back).modify front.length f = front ++ f x :: back := by
  induction front with
  | nil => rfl
  | cons y front ih => simpa using ih

end Sys2Proof.Machine

namespace Sys2Proof.Safety

open Sys2Proof.Machine

variable {s : State} {n k leaves : Nat} {rest : List Item} {nodes : List Node} {stack : List DesFrame}

/-! ### A subtree -/

/-- The table with the entry of an Internal node allocated, both its children still to be read (R177 c). -/
def opened (nodes : List Node) : List Node := nodes ++ [.internal 0 Config.nil Config.nil]

/-- The table with the left subtree of that Internal node read and linked to it (R177 c). -/
def leftRead (nodes : List Node) (l : Tree) : List Node :=
  (opened nodes ++ l.layout (nodes.length + 1)).modify (BitVec.ofNat 9 nodes.length).toNat
    (Node.withLeft (BitVec.ofNat 9 (nodes.length + 1)))

@[simp] theorem length_opened (nodes : List Node) : (opened nodes).length = nodes.length + 1 := List.length_append

@[simp] theorem length_leftRead (nodes : List Node) (l : Tree) :
    (leftRead nodes l).length = nodes.length + 1 + l.size := by
  rw [leftRead, List.length_modify, List.length_append, length_layout, length_opened]

/-- With the right subtree read and linked too, the entries are the layout of the Internal node (R177 c). -/
theorem layout_of_children (l r : Tree) (room : nodes.length < 512) :
    (leftRead nodes l ++ r.layout (nodes.length + 1 + l.size)).modify (BitVec.ofNat 9 nodes.length).toNat
        (Node.withRight (BitVec.ofNat 9 (nodes.length + 1 + l.size))) =
      nodes ++ (Tree.node l r).layout nodes.length := by
  rw [leftRead, opened, toNat_ofNat_index room, List.append_assoc, List.singleton_append, modify_middle, List.append_assoc,
    List.cons_append, modify_middle]
  rfl

/-- The bytes of a subtree, read at a tag: they are popped, the subtree is laid out, and its root is returned. -/
theorem runMicro_reading_tree (t : Tree) (s : State) (fits : nodes.length + t.size ≤ 511) (n : Nat) :
    runMicro (t.bytes.length + n) (s.reading (.desTag stack) k (t.bytes.map .byte ++ rest) nodes leaves) =
      runMicro n (desReturn (BitVec.ofNat 9 nodes.length) stack (s.reading .idle (k + t.bytes.length) rest
        (nodes ++ t.layout nodes.length) (leaves + t.leafCount))) := by
  induction t generalizing stack k rest nodes leaves n with
  | leaf sym =>
    rw [Tree.size] at fits
    calc runMicro (2 + n) (s.reading (.desTag stack) k (.byte 0x00 :: .byte sym :: rest) nodes leaves)
      _ = runMicro (n + 1) (s.reading (.desSym stack) (k + 1) (.byte sym :: rest) nodes leaves) := by
        rw [Nat.add_comm, runMicro_reading_tagLeaf s (by omega)]
      _ = _ := runMicro_reading_sym s sym n
  | node l r ihl ihr =>
    rw [Tree.size] at fits
    have := size_add_one r
    let i := BitVec.ofNat 9 nodes.length
    have left := ihl (stack := .left i :: stack) (k := k + 1) (rest := r.bytes.map .byte ++ rest) (nodes := opened nodes)
      (leaves := leaves) (by rw [length_opened]; omega) (r.bytes.length + n)
    have right := ihr (stack := .right i :: stack) (k := k + 1 + l.bytes.length) (rest := rest)
      (nodes := leftRead nodes l) (leaves := leaves + l.leafCount) (by rw [length_leftRead]; omega) n
    rw [length_opened] at left
    rw [length_leftRead] at right
    simp only [Tree.bytes, List.length_cons, List.length_append, List.map_cons, List.map_append, List.cons_append,
      List.append_assoc]
    calc runMicro (l.bytes.length + r.bytes.length + 1 + n) (s.reading (.desTag stack) k
          (.byte 0x01 :: (l.bytes.map .byte ++ (r.bytes.map .byte ++ rest))) nodes leaves)
      _ = runMicro (l.bytes.length + (r.bytes.length + n)) (s.reading (.desTag (.left i :: stack)) (k + 1)
            (l.bytes.map .byte ++ (r.bytes.map .byte ++ rest)) (opened nodes) leaves) := by
        rw [Nat.add_right_comm, runMicro_reading_tagInternal s (by omega), Nat.add_assoc]
        rfl
      _ = runMicro (r.bytes.length + n) (s.reading (.desTag (.right i :: stack)) (k + 1 + l.bytes.length)
            (r.bytes.map Item.byte ++ rest) (leftRead nodes l) (leaves + l.leafCount)) := left
      _ = runMicro n (desReturn i stack (s.reading .idle (k + 1 + l.bytes.length + r.bytes.length) rest
            ((leftRead nodes l ++ r.layout (nodes.length + 1 + l.size)).modify i.toNat
              (Node.withRight (BitVec.ofNat 9 (nodes.length + 1 + l.size))))
            (leaves + l.leafCount + r.leafCount))) := right
      _ = _ := by
        rw [layout_of_children l r (by omega), Tree.leafCount, Nat.add_assoc leaves,
          show k + 1 + l.bytes.length + r.bytes.length = k + (l.bytes.length + r.bytes.length + 1) by omega]

/-! ### The whole command -/

/-- The micro-steps of TDES read the bytes of a tree that fits the table, and complete (R177, R181). -/
theorem runMicro_desStart {h : Shaped} (s : State) (zero : s.incnt = 0) (hq : s.inq = h.bytes.map .byte ++ rest)
    (fits : h.size ≤ 511) (pace : h.bytes.length ≤ n) :
    runMicro n (s.desStart h.shape) =
      .next ((s.reading .idle h.bytes.length rest h.layout h.leafCount).treeRead h.root h.shape) := by
  obtain ⟨n, rfl⟩ := Nat.exists_eq_add_of_le pace
  cases h with
  | empty =>
    rw [Shaped.shape, desStart_zero zero, hq, runMicro_idle rfl]
    rfl
  | lone t =>
    have fits' : (opened []).length + t.size ≤ 511 := fits
    simp only [Shaped.shape, Shaped.bytes, List.length_cons, List.map_cons, List.cons_append] at hq ⊢
    rw [desStart_one zero, hq, Nat.add_right_comm, runMicro_reading_rootInternal, ← opened,
      runMicro_reading_tree t s fits', runMicro_idle rfl, Nat.zero_add, Nat.zero_add, Nat.add_comm 1]
    rfl
  | full t =>
    have fits' : ([] : List Node).length + t.size ≤ 511 := by simpa [Shaped.size] using fits
    simp only [Shaped.shape, Shaped.bytes] at hq ⊢
    rw [desStart_two zero, hq, runMicro_reading_tree t s fits', runMicro_idle rfl, Nat.zero_add, Nat.zero_add]
    rfl

theorem desStart_pace (s : State) (shape : BitVec 2) : (s.desStart shape).pace = s.pace := by
  unfold State.desStart
  dsimp only
  split_ifs <;> rfl

/-- TDES, once accepted, with the bytes of a tree that fits the table in front of INQ and the pace to read them. -/
theorem exec_tdes_of_bytes {h : Shaped} (hc : checks (.tdes h.shape) s = none)
    (hq : s.inq = h.bytes.map .byte ++ rest) (fits : h.size ≤ 511) (pace : h.bytes.length ≤ s.pace) :
    exec (.tdes h.shape) s = .next (((s.accept (.tdes h.shape)).reading .idle h.bytes.length rest h.layout
      h.leafCount).treeRead h.root h.shape) := by
  rw [exec, execTdes, issued_of_pass hc, goOn, desStart_pace]
  exact runMicro_desStart _ rfl hq fits pace

/-- Settles O36: the accepted TDES reads the tree's bytes into its layout (`exec_tdes_of_bytes`), which is all it changes. -/
theorem tdesReadsTheTree : Obligations.TdesReadsTheTree := by
  intro s h rest hp he hf ht fits hq pace
  rw [exec_tdes_of_bytes (pass_tdes (shape_ne_three h) hp he hf ht) hq fits pace, State.treeRead, finish_of_idle rfl,
    State.reading, ← hp]
  rfl

end Sys2Proof.Safety

/-! SUPPORT. What TSER writes, TDES reads back (44_treecodec.md R180). -/

namespace Sys2Proof.Safety

open Sys2Proof.Machine

/-- An idle state that holds the tree and has no code book yet (R97). -/
structure ReadyToGen (s : State) (h : Shaped) : Prop where
  idle : s.phase = .idle
  err : s.err = false
  tv : s.tv = true
  bv : s.bv = false
  held : h.heldAt s.nodes s.root = true

/-- The code table GEN makes depends on the tree only (R160, R180). -/
theorem ReadyToGen.exec_gen {s : State} {h : Shaped} (ready : ReadyToGen s h) (fits : h.size ≤ 511) :
    ∃ s', exec .gen s = .next s' ∧ s'.code = codeTable h.codes := by
  obtain ⟨hp, he, ht, hb, held⟩ := ready
  obtain ⟨walked, e⟩ := exec_gen_of_held (pass_gen hp he ht hb) held (shaped_depth_le fits)
  exact ⟨_, e, rfl⟩

/-- Settles O38: TSER writes the tree's bytes (`tserWritesTheTree`), TDES makes of them the layout of the same tree
(`tdesReadsTheTree`, `shaped_heldAt_layout`), and GEN's table depends on the tree only (`ReadyToGen.exec_gen`). -/
theorem treeSurvivesSerialization : Obligations.TreeSurvivesSerialization := by
  intro s u h rest t y hp he ht hb hshape held fits takes pace tser hy up ue uf ut ub uq upace
  have short := length_shaped_bytes_le fits
  obtain ⟨readyT, rfl⟩ : ReadyToGen t h ∧ h.bytes = y := by
    rw [tserWritesTheTree s h hp he ht held (sinkTakes_le takes short) (short.trans pace)] at tser
    cases tser
    exact ⟨⟨hp, he, ht, hb, held⟩, List.append_cancel_left hy⟩
  obtain ⟨v, tdes, inq, shape, readyV⟩ :
      ∃ v, exec (.tdes h.shape) u = .next v ∧ v.inq = rest ∧ v.shape = h.shape ∧ ReadyToGen v h :=
    ⟨_, tdesReadsTheTree u h rest up ue uf ut fits uq (short.trans upace), rfl, rfl, up, ue, rfl, ub,
      shaped_heldAt_layout h fits⟩
  obtain ⟨t', genT, codeT⟩ := readyT.exec_gen fits
  obtain ⟨v', genV, codeV⟩ := readyV.exec_gen fits
  rw [hshape]
  exact ⟨v, tdes, inq, shape, readyV.held, t', v', genT, genV, codeT.trans codeV.symm⟩

end Sys2Proof.Safety

/-! SUPPORT. Bits in bytes (20_memory.md R63, 45_bitstream.md R200): the full groups of eight of a bit sequence and the bits left
over, the packed payload in these terms, and that unpacking gives the bits back. -/

namespace Sys2Proof.Safety

open Sys2Proof.Machine

variable {bits more : List Bool}

/-! ### One byte -/

/-- The accumulator with a bit shifted in (R202). -/
def shiftIn (acc : Byte) (v : Bool) : Byte := (acc <<< 1) ||| (BitVec.ofBool v).setWidth 8

/-- What the accumulator holds after these bits (R202). -/
def byteOf (bits : List Bool) : Byte := bits.foldl shiftIn 0

theorem byteOf_concat (bits : List Bool) (v : Bool) : byteOf (bits ++ [v]) = shiftIn (byteOf bits) v := List.foldl_append

/-- Zeros put behind the bits move them up (R203). -/
theorem byteOf_pad (bits : List Bool) (k : Nat) : byteOf (bits ++ List.replicate k false) = byteOf bits <<< k := by
  induction k with
  | zero => simp
  | succ k ih =>
    rw [List.replicate_succ', ← List.append_assoc, byteOf_concat, ih, shiftIn, ← BitVec.shiftLeft_add]
    simp

theorem byteOf_eight : ∀ a b c d e f g h : Bool,
    byteOf [a, b, c, d, e, f, g, h] = BitVec.ofBoolListBE [a, b, c, d, e, f, g, h] ∧
      (List.range 8).map (byteOf [a, b, c, d, e, f, g, h]).getMsbD = [a, b, c, d, e, f, g, h] := by
  decide +kernel

theorem unpack_byteOf (h : bits.length = 8) : (List.range 8).map (byteOf bits).getMsbD = bits := by
  match bits, h with
  | [a, b, c, d, e, f, g, h], _ => exact (byteOf_eight a b c d e f g h).2

/-! ### The groups of a bit sequence -/

/-- The eight bits of byte `j`, zeros where the sequence has ended (R200). -/
def eightAt (bits : List Bool) (j : Nat) : List Bool := (List.range 8).map fun i => bits.getD (8 * j + i) false

@[simp] theorem length_eightAt (bits : List Bool) (j : Nat) : (eightAt bits j).length = 8 := by simp [eightAt]

theorem packed_eq (bits : List Bool) :
    packed bits = (List.range ((bits.length + 7) / 8)).map fun j => byteOf (eightAt bits j) :=
  List.map_congr_left fun _ _ => (byteOf_eight _ _ _ _ _ _ _ _).1.symm

@[simp] theorem length_packed (bits : List Bool) : (packed bits).length = (bits.length + 7) / 8 := by simp [packed]

/-- The bytes of the full groups of eight (R202). -/
def groups (bits : List Bool) : List Byte := (packed bits).take (bits.length / 8)

/-- The bits after the last full group (R202). -/
def leftover (bits : List Bool) : List Bool := bits.drop (8 * (bits.length / 8))

@[simp] theorem length_groups (bits : List Bool) : (groups bits).length = bits.length / 8 := by
  rw [groups, List.length_take, length_packed]
  omega

@[simp] theorem length_leftover (bits : List Bool) : (leftover bits).length = bits.length % 8 := by
  rw [leftover, List.length_drop]
  omega

theorem groups_eq (bits : List Bool) :
    groups bits = (List.range (bits.length / 8)).map fun j => byteOf (eightAt bits j) := by
  rw [groups, packed_eq, ← List.map_take, List.take_range, Nat.min_eq_left (by omega)]

theorem eightAt_append {j : Nat} (full : 8 * j + 8 ≤ bits.length) : eightAt (bits ++ more) j = eightAt bits j :=
  List.map_congr_left fun i hi => by
    have := List.mem_range.1 hi
    rw [List.getD_append _ _ _ _ (by omega)]

/-- The last byte holds the bits left over, with zeros behind (R203). -/
theorem eightAt_last (bits : List Bool) :
    eightAt bits (bits.length / 8) = leftover bits ++ List.replicate (8 - bits.length % 8) false := by
  apply List.ext_getElem
  · rw [length_eightAt, List.length_append, length_leftover, List.length_replicate]
    omega
  · intro i hi hi'
    by_cases inside : i < bits.length % 8
    · rw [List.getElem_append_left (by simpa using inside)]
      simp [eightAt, leftover, List.getD_eq_getElem?_getD, show 8 * (bits.length / 8) + i < bits.length by omega]
    · rw [List.getElem_append_right (by simpa using inside)]
      simp [eightAt, List.getD_eq_getElem?_getD, show bits.length ≤ 8 * (bits.length / 8) + i by omega]

/-- A bit that does not fill a group of eight is left over (R202). -/
theorem groups_concat_of_room (v : Bool) (room : bits.length % 8 ≠ 7) :
    groups (bits ++ [v]) = groups bits ∧ leftover (bits ++ [v]) = leftover bits ++ [v] := by
  have same : (bits ++ [v]).length / 8 = bits.length / 8 := by rw [List.length_append, List.length_singleton]; omega
  constructor
  · rw [groups_eq, groups_eq, same]
    refine List.map_congr_left fun j hj => ?_
    have := List.mem_range.1 hj
    rw [eightAt_append (by omega)]
  · rw [leftover, same, List.drop_append_of_le_length (by omega), leftover]

/-- The bit that fills a group makes a byte of it, and none is left over (R202). -/
theorem groups_concat_of_full (v : Bool) (full : bits.length % 8 = 7) :
    groups (bits ++ [v]) = groups bits ++ [byteOf (leftover bits ++ [v])] ∧ leftover (bits ++ [v]) = [] := by
  have next : (bits ++ [v]).length / 8 = bits.length / 8 + 1 := by rw [List.length_append, List.length_singleton]; omega
  constructor
  · have group : eightAt (bits ++ [v]) (bits.length / 8) = leftover bits ++ [v] := by
      apply List.ext_getElem
      · simp [eightAt, full]
      · intro i hi hi'
        have : i < 8 := by simpa [eightAt] using hi
        by_cases last : i = 7
        · subst last
          rw [List.getElem_append_right (by simp [full])]
          simp [eightAt, full, show 8 * (bits.length / 8) + 7 = bits.length by omega]
        · rw [List.getElem_append_left (by simp [full]; omega)]
          have inside : 8 * (bits.length / 8) + i < bits.length := by omega
          simp [eightAt, leftover, List.getElem?_append_left inside, inside]
    rw [groups_eq, groups_eq, next, List.range_succ, List.map_append, List.map_singleton, group]
    refine congrArg (· ++ _) (List.map_congr_left fun j hj => ?_)
    have := List.mem_range.1 hj
    rw [eightAt_append (by omega)]
  · rw [leftover, next]
    exact List.drop_eq_nil_of_le (by rw [List.length_append, List.length_singleton]; omega)

/-- The payload is the full groups and, where bits are left over, one more byte with these moved up (R203). -/
theorem packed_of_rest (h : bits.length % 8 ≠ 0) :
    packed bits = groups bits ++ [byteOf (leftover bits) <<< (8 - bits.length % 8)] := by
  rw [packed_eq, groups_eq, ← byteOf_pad, ← eightAt_last, show (bits.length + 7) / 8 = bits.length / 8 + 1 by omega,
    List.range_succ, List.map_append]
  rfl

theorem packed_of_full (h : bits.length % 8 = 0) : packed bits = groups bits := by
  rw [packed_eq, groups_eq, show (bits.length + 7) / 8 = bits.length / 8 by omega]

/-! ### Unpacking -/

@[simp] theorem length_payloadBits (payload : List Byte) : (payloadBits payload).length = 8 * payload.length := by
  induction payload with
  | nil => rfl
  | cons b payload ih =>
    rw [payloadBits, List.flatMap_cons, List.length_append, ← payloadBits, ih, List.length_map, List.length_range,
      List.length_cons]
    omega

/-- Bit `c` of a payload is in byte `c / 8`, bit 7 first (R63). -/
theorem payloadBits_getElem? (payload : List Byte) (c : Nat) :
    (payloadBits payload)[c]? = payload[c / 8]?.map (·.getMsbD (c % 8)) := by
  induction payload generalizing c with
  | nil => rfl
  | cons b payload ih =>
    rw [payloadBits, List.flatMap_cons, ← payloadBits]
    by_cases first : c < 8
    · rw [List.getElem?_append_left (by simpa using first), Nat.div_eq_of_lt first, Nat.mod_eq_of_lt first]
      simp [first]
    · obtain ⟨c, rfl⟩ := Nat.exists_eq_add_of_le (Nat.le_of_not_lt first)
      rw [List.getElem?_append_right (by simp)]
      simp [ih, Nat.add_mod_left, Nat.add_div_left, show 8 + c - 8 = c by omega]

/-- The first bits of the packed payload are the bits that were packed (R63, R200). -/
theorem take_payloadBits_packed (bits : List Bool) : (payloadBits (packed bits)).take bits.length = bits := by
  apply List.ext_getElem?
  intro c
  rw [List.getElem?_take]
  split
  · next inside =>
    have bit : (byteOf (eightAt bits (c / 8))).getMsbD (c % 8) = bits.getD (8 * (c / 8) + c % 8) false := by
      have := congrArg (·[c % 8]?) (unpack_byteOf (length_eightAt bits (c / 8)))
      simpa [show c % 8 < 8 by omega, eightAt] using this
    rw [payloadBits_getElem?, packed_eq, List.getElem?_map, List.getElem?_range (by omega), Option.map_some,
      Option.map_some, bit, Nat.div_add_mod, List.getD_eq_getElem _ _ inside, List.getElem?_eq_getElem inside]
  · next outside => exact (List.getElem?_eq_none (by omega)).symm

theorem exists_payload_of_packed (nonempty : bits ≠ []) : ∃ payload last, packed bits = payload ++ [last] := by
  refine ⟨_, _, (List.dropLast_concat_getLast fun e => ?_).symm⟩
  have pos := List.length_pos_of_ne_nil nonempty
  have noByte := congrArg List.length e
  rw [length_packed, List.length_nil] at noByte
  omega

/-- A payload without its last byte holds fewer bits than were packed (R210). -/
theorem payloadBits_prefix_of_packed {payload : List Byte} {last : Byte} (h : packed bits = payload ++ [last]) :
    payloadBits payload <+: bits ∧ (payloadBits payload).length < bits.length := by
  have size := congrArg List.length h
  rw [length_packed, List.length_append, List.length_singleton] at size
  have short : (payloadBits payload).length < bits.length := by
    rw [length_payloadBits]
    omega
  have front : payloadBits payload <+: payloadBits (packed bits) := by
    rw [h, payloadBits, payloadBits, List.flatMap_append]
    exact List.prefix_append _ _
  exact ⟨List.prefix_of_prefix_length_le front (List.prefix_iff_eq_take.2 (take_payloadBits_packed bits).symm) short.le, short⟩

end Sys2Proof.Safety

/-! SUPPORT. What ENC and DEC share: an error in an idle core, and an OutPush that the sink will answer. -/

namespace Sys2Proof.Machine

open Sys2Proof.Safety

variable {s : State}

/-- Of a state that already reads BUSY = 0, taking an error changes the error latch and the response channel only (R275). -/
theorem raise_of_idle (hp : s.phase = .idle) (e : Err) :
    s.raise e = { s with err := true, errcode := e.code, errsub := e.sub, rsps := s.rsps ++ [⟨respErr, 0⟩] } := by
  rw [State.raise, ← hp]
  rfl

/-- At an OutPush the sink's answer is all that a micro-step waits for. -/
theorem enabled_of_atPush {a : SinkAnswer} (hp : AtPush s) (ha : s.nextAnswer = some a) : s.enabled = true := by
  rcases hp with ⟨b, rest, hp⟩ | ⟨i, n, rest, hp, -⟩ | ⟨v, rest, hp⟩ | hp | ⟨b, hp⟩ <;> simp [State.enabled, hp, ha]

end Sys2Proof.Machine

/-! SUPPORT. ENC (45_bitstream.md R201 to R203): it stands at a stream access with the code bits put so far behind it, and the
statements about it. -/

namespace Sys2Proof.Machine

open Sys2Proof.Safety

variable {s t : State} {bits : List Bool} {k n : Nat} {rest : List Item} {src : List Byte} {phase : Phase}

/-! ### One micro-step at the InPop (R201) -/

theorem micro_encPop_coded {b : Byte} (hp : s.phase = .encPop) (hq : s.inq = .byte b :: rest)
    (hb : (entry s.code b).len ≠ 0) : micro s = .next (putBits (entry s.code b).path (s.popped (.byte b) rest)) := by
  rw [micro_encPop hp, encPopMicro, inPop_byte hq]
  exact if_neg hb

theorem micro_encPop_noCode {b : Byte} (hp : s.phase = .encPop) (hq : s.inq = .byte b :: rest)
    (hb : (entry s.code b).len = 0) : micro s = .next ((s.popped (.byte b) rest).raise .noCode) := by
  rw [micro_encPop hp, encPopMicro, inPop_byte hq]
  exact if_pos hb

theorem micro_encPop_eos_done (hp : s.phase = .encPop) (hq : s.inq = .eos :: rest) (hn : s.nacc = 0) :
    micro s = .next (s.popped .eos rest).encDone := by
  rw [micro_encPop hp, encPopMicro, inPop_eos hq]
  exact if_pos hn

theorem micro_encPop_eos_flush (hp : s.phase = .encPop) (hq : s.inq = .eos :: rest) (hn : s.nacc ≠ 0) :
    micro s = .next { s.popped .eos rest with phase := .encFlush } := by
  rw [micro_encPop hp, encPopMicro, inPop_eos hq]
  exact if_neg hn

/-! ### The packer -/

/-- ENC, accepted in state `s`, at a point of its run: `k` bytes are popped and `rest` is what INQ still holds; of the code bits
`bits` the full groups are delivered and the others in ACC (R202). -/
def State.encoding (s : State) (phase : Phase) (k : Nat) (rest : List Item) (bits : List Bool) : State :=
  { s.wrote (groups bits) with
    phase := phase, incnt := BitVec.ofNat 64 k, inq := rest, acc := byteOf (leftover bits)
    nacc := BitVec.ofNat 3 bits.length }

@[simp] theorem encoding_code (s : State) (phase : Phase) : (s.encoding phase k rest bits).code = s.code := by
  rw [State.encoding, wrote_eq]

theorem encoding_start (zero : s.incnt = 0) : s.encoding .encPop 0 s.inq [] = { s.emptyAcc with phase := .encPop } := by
  rw [State.encoding, show BitVec.ofNat 64 0 = s.incnt from zero.symm]
  rfl

theorem popped_encoding (s : State) (phase : Phase) (b : Byte) :
    (s.encoding phase k (.byte b :: rest) bits).popped (.byte b) rest = s.encoding phase (k + 1) rest bits := by
  rw [State.encoding, State.encoding, BitVec.ofNat_add]
  rfl

/-- An error leaves nothing of the point it was raised at. -/
theorem raise_encoding (s : State) (phase : Phase) (e : Err) :
    (s.encoding phase k rest bits).raise e = ({ s.encoding phase k rest bits with phase := s.phase } : State).raise e := rfl

theorem encoding_nacc_eq_iff (s : State) (phase : Phase) {m : BitVec 3} :
    (s.encoding phase k rest bits).nacc = m ↔ bits.length % 8 = m.toNat := by
  rw [← BitVec.toNat_inj]
  simp [State.encoding]

/-- A bit that fills no group goes into ACC (R202). -/
theorem putBit_encoding (s : State) (phase : Phase) (v : Bool) (room : bits.length % 8 ≠ 7) :
    (s.encoding phase k rest bits).putBit v = s.encoding phase k rest (bits ++ [v]) := by
  obtain ⟨same, left⟩ := groups_concat_of_room v room
  rw [State.encoding, State.encoding, same, left, byteOf_concat, List.length_append, List.length_singleton,
    BitVec.ofNat_add]
  rfl

theorem putBits_encoding_cons (s : State) (phase : Phase) (v : Bool) (todo : List Bool) :
    putBits (v :: todo) (s.encoding phase k rest bits) =
      if bits.length % 8 = 7 then s.encoding (.encPush v todo) k rest bits
      else putBits todo (s.encoding phase k rest (bits ++ [v])) := by
  rw [putBits]
  by_cases full : bits.length % 8 = 7
  · rw [if_pos full]
    exact if_pos ((encoding_nacc_eq_iff s phase).2 full)
  · rw [if_neg full, ← putBit_encoding s phase v full]
    exact if_neg fun e => full ((encoding_nacc_eq_iff s phase).1 e)

/-- The sink takes the group that a bit fills (R202). -/
theorem pushed_encoding (s : State) (phase : Phase) (v : Bool) (full : bits.length % 8 = 7) :
    ((s.encoding phase k rest bits).pushed ((s.encoding phase k rest bits).shiftedIn v)).emptyAcc =
      s.encoding phase k rest (bits ++ [v]) := by
  obtain ⟨next, none⟩ := groups_concat_of_full v full
  have empty : BitVec.ofNat 3 (bits ++ [v]).length = 0 := by
    apply BitVec.eq_of_toNat_eq
    simp
    omega
  rw [State.encoding, State.encoding, next, none, empty, byteOf_concat, wrote_append]
  rfl

theorem nextAnswer_encoding (takes : sinkTakes n s = true) (room : bits.length / 8 < n) :
    (s.encoding phase k rest bits).nextAnswer = some .ok := by
  have takes' : sinkTakes 1 (s.wrote (groups bits)) = true :=
    sinkTakes_wrote (sinkTakes_le takes (by rw [length_groups]; omega))
  exact (nextAnswer_congr rfl rfl).trans (nextAnswer_of_sinkTakes takes')

/-- The micro-steps that put the bits of a code are one push for every group they fill (R202). -/
theorem runMicro_putBits (todo : List Bool) (takes : sinkTakes ((bits ++ todo).length / 8) s = true) (n : Nat) :
    runMicro ((bits ++ todo).length / 8 - bits.length / 8 + n) (putBits todo (s.encoding phase k rest bits)) =
      runMicro n (s.encoding .encPop k rest (bits ++ todo)) := by
  induction todo generalizing bits phase with
  | nil => simp [putBits, State.encoding]
  | cons v todo ih =>
    rw [List.append_cons] at takes ⊢
    have longer : (bits ++ [v]).length = bits.length + 1 := List.length_append
    have all : (bits ++ [v] ++ todo).length = bits.length + 1 + todo.length := by rw [List.length_append, longer]
    rw [putBits_encoding_cons]
    split
    · next full =>
      have ok : (s.encoding (.encPush v todo) k rest bits).nextAnswer = some .ok := nextAnswer_encoding takes (by omega)
      rw [show (bits ++ [v] ++ todo).length / 8 - bits.length / 8 + n =
          (bits ++ [v] ++ todo).length / 8 - (bits ++ [v]).length / 8 + n + 1 by omega,
        runMicro_enabled (enabled_of_atPush (.inr (.inr (.inl ⟨v, todo, rfl⟩))) ok), micro_encPush rfl, encPushMicro,
        outPush_ok ok, andThen_next, pushed_encoding s _ v full, ih takes]
    · next room =>
      rw [show bits.length / 8 = (bits ++ [v]).length / 8 by omega, ih takes]

/-! ### The source -/

/-- ENC pops the bytes of a coded source and puts their codes (R201). -/
theorem runMicro_encoding (src : List Byte) (hcoded : ∀ b ∈ src, (entry s.code b).len ≠ 0)
    (takes : sinkTakes ((bits ++ codeBits s.code src).length / 8) s = true) (n : Nat) :
    runMicro (src.length + ((bits ++ codeBits s.code src).length / 8 - bits.length / 8) + n)
        (s.encoding .encPop k (src.map .byte ++ rest) bits) =
      runMicro n (s.encoding .encPop (k + src.length) rest (bits ++ codeBits s.code src)) := by
  induction src generalizing bits k with
  | nil => simp [codeBits]
  | cons b src ih =>
    have here : bits ++ codeBits s.code (b :: src) = bits ++ (entry s.code b).path ++ codeBits s.code src := by
      simp [codeBits]
    rw [here] at takes ⊢
    have all := List.length_append (as := bits ++ (entry s.code b).path) (bs := codeBits s.code src)
    have first := List.length_append (as := bits) (bs := (entry s.code b).path)
    have pop : micro (s.encoding .encPop k (.byte b :: (src.map .byte ++ rest)) bits) =
        .next (putBits (entry s.code b).path (s.encoding .encPop (k + 1) (src.map .byte ++ rest) bits)) := by
      rw [← popped_encoding, ← encoding_code s .encPop]
      exact micro_encPop_coded rfl rfl (by simpa using hcoded b (List.mem_cons_self ..))
    rw [show (b :: src).length + ((bits ++ (entry s.code b).path ++ codeBits s.code src).length / 8 - bits.length / 8) + n =
        (bits ++ (entry s.code b).path).length / 8 - bits.length / 8 + (src.length +
          ((bits ++ (entry s.code b).path ++ codeBits s.code src).length / 8 -
            (bits ++ (entry s.code b).path).length / 8) + n) + 1 by
        rw [List.length_cons]; omega,
      List.map_cons, List.cons_append, runMicro_next rfl pop, runMicro_putBits _ (sinkTakes_le takes (by omega)),
      ih (fun c hc => hcoded c (List.mem_cons_of_mem b hc)) takes, List.length_cons, Nat.add_assoc, Nat.add_comm 1]

/-- What issuing ENC needs to be accepted (R97), a coded source in front of INQ, a sink that takes the groups it fills, and the
pace to write them (log entry 3). -/
structure EncReady (s : State) (src : List Byte) (rest : List Item) : Prop where
  idle : s.phase = .idle
  err : s.err = false
  bv : s.bv = true
  fin : s.fin = false
  inq : s.inq = src.map .byte ++ rest
  coded : ∀ b ∈ src, (entry s.code b).len ≠ 0
  takes : sinkTakes ((codeBits s.code src).length / 8) s = true
  pace : src.length + (codeBits s.code src).length / 8 ≤ s.pace

/-- ENC packs the source and takes what is left of the pace from there. -/
theorem EncReady.exec_enc (h : EncReady s src rest) :
    exec .enc s = runMicro (s.pace - (src.length + (codeBits s.code src).length / 8))
      ((s.accept .enc).encoding .encPop src.length rest (codeBits s.code src)) := by
  have run := runMicro_encoding (s := s.accept .enc) (bits := []) (k := 0) (rest := rest) src h.coded h.takes
    (s.pace - (src.length + (codeBits s.code src).length / 8))
  rw [exec, execEnc, issued_of_pass (pass_enc h.idle h.err h.bv h.fin), ← encoding_start rfl,
    show (s.accept .enc).inq = src.map .byte ++ rest from h.inq]
  show runMicro s.pace _ = _
  rw [← Nat.add_sub_of_le h.pace]
  simpa using run

/-! ### The end of the source -/

/-- ENC's last state: the payload is delivered, ACC is empty, FIN is set (R203). -/
def State.encoded (s : State) (k : Nat) (rest : List Item) (bits : List Bool) : State :=
  State.encDone { s.wrote (packed bits) with incnt := BitVec.ofNat 64 k, inq := rest }

theorem encoded_eq (s : State) (k : Nat) (rest : List Item) (bits : List Bool) (hp : s.phase = .idle) :
    s.encoded k rest bits = { s with
      incnt := BitVec.ofNat 64 k, outcnt := s.outcnt + BitVec.ofNat 64 ((bits.length + 7) / 8), inq := rest
      outq := s.outq ++ packed bits, sinkAnswers := s.sinkAnswers.drop (packed bits).length
      acc := 0, nacc := 0, fin := true, rsps := s.rsps ++ [⟨0, 0⟩] } := by
  rw [State.encoded, wrote_eq, State.encDone, finish_of_idle (by exact hp), length_packed]
  rfl

/-- At EOS the bits left over, if there are any, are flushed, and ENC ends (R201, R203). -/
theorem runMicro_encoding_eos (takes : sinkTakes (packed bits).length s = true)
    (pace : (packed bits).length + 1 ≤ bits.length / 8 + n) :
    runMicro n (s.encoding .encPop k (.eos :: rest) bits) = .next (s.encoded k rest bits) := by
  rw [length_packed] at pace takes
  by_cases full : bits.length % 8 = 0
  · obtain ⟨n, rfl⟩ : ∃ m, n = m + 1 := ⟨n - 1, by omega⟩
    rw [State.encoded, packed_of_full full]
    exact runMicro_of_ends rfl (micro_encPop_eos_done rfl rfl ((encoding_nacc_eq_iff s _).2 full)) rfl n
  · obtain ⟨n, rfl⟩ : ∃ m, n = m + 1 + 1 := ⟨n - 2, by omega⟩
    have ok : (s.encoding .encFlush k rest bits).nextAnswer = some .ok := nextAnswer_encoding takes (by omega)
    have flush : micro (s.encoding .encFlush k rest bits) = .next (s.encoded k rest bits) := by
      have nacc : (s.encoding .encFlush k rest bits).nacc.toNat = bits.length % 8 :=
        ((encoding_nacc_eq_iff s _).1 rfl).symm
      rw [micro_encFlush rfl, encFlushMicro, outPush_ok ok, nacc, State.encoded, packed_of_rest full, wrote_append]
      rfl
    rw [runMicro_next rfl (micro_encPop_eos_flush rfl rfl fun e => full ((encoding_nacc_eq_iff s _).1 e))]
    exact runMicro_of_ends (enabled_of_atPush (.inr (.inr (.inr (.inl rfl)))) ok) flush rfl n

/-- ENC on a source that ends with EOS (R201). -/
theorem EncReady.exec_enc_eos (h : EncReady s src (.eos :: rest))
    (takes : sinkTakes (packed (codeBits s.code src)).length s = true)
    (pace : src.length + 1 + (packed (codeBits s.code src)).length ≤ s.pace) :
    exec .enc s = .next ((s.accept .enc).encoded src.length rest (codeBits s.code src)) := by
  rw [h.exec_enc]
  exact runMicro_encoding_eos takes (by omega)

/-- A sink that takes the payload takes its full groups. -/
theorem groups_le_packed (bits : List Bool) : bits.length / 8 ≤ (packed bits).length := by
  rw [length_packed]
  omega

/-- Settles O39: the bytes of the source are popped and their codes put (`runMicro_encoding`), and EOS flushes the rest. -/
theorem encPacksTheCodes : Obligations.EncPacksTheCodes := by
  intro s src rest hp he hb hf hq hcoded takes pace
  have := groups_le_packed (codeBits s.code src)
  rw [EncReady.exec_enc_eos ⟨hp, he, hb, hf, hq, hcoded, sinkTakes_le takes this, by omega⟩ takes pace,
    encoded_eq _ _ _ _ (by exact hp)]
  have counted : (s.accept .enc).outcnt + BitVec.ofNat 64 (((codeBits s.code src).length + 7) / 8) =
      BitVec.ofNat 64 (((codeBits s.code src).length + 7) / 8) := BitVec.zero_add _
  rw [counted]
  rfl

/-- Settles O40: the bytes before it are popped and their codes put (`runMicro_encoding`), and its pop raises NOCODE. -/
theorem encRefusesAByteWithoutACode : Obligations.EncRefusesAByteWithoutACode := by
  intro s src b rest hp he hb hf hq hcoded hbare takes pace
  have ready : EncReady s src (.byte b :: rest) := ⟨hp, he, hb, hf, hq, hcoded, takes, by omega⟩
  obtain ⟨n, hn⟩ : ∃ n, s.pace - (src.length + (codeBits s.code src).length / 8) = n + 1 :=
    ⟨s.pace - (src.length + (codeBits s.code src).length / 8) - 1, by omega⟩
  refine ⟨byteOf (leftover (codeBits s.code src)), BitVec.ofNat 3 (codeBits s.code src).length, ?_⟩
  rw [ready.exec_enc, hn, runMicro_of_ends rfl (micro_encPop_noCode rfl rfl (by rw [encoding_code]; exact hbare)) rfl,
    popped_encoding, raise_encoding, raise_of_idle (by exact hp), State.encoding, wrote_eq, length_groups]
  have counted : (s.accept .enc).outcnt + BitVec.ofNat 64 ((codeBits s.code src).length / 8) =
      BitVec.ofNat 64 ((codeBits s.code src).length / 8) := BitVec.zero_add _
  rw [counted]
  rfl

end Sys2Proof.Machine

/-! SUPPORT. DEC (45_bitstream.md R204 to R207): it walks the tree with the number of payload bits it has taken behind it, one
symbol after the other; and the statements about it. -/

namespace Sys2Proof.Machine

open Sys2Proof.Safety

variable {s t : State} {k : State → Result} {n : Nat} {rest : List Item}

/-! ### One micro-step, one bit -/

/-- A bit with no child on its side raises CORRUPT 1 (R206). -/
theorem walkBit_noChild {v : Bool} (h : noChild s.nodes s.cur v = true) : walkBit v s k = .next (s.raise .noChild) := by
  unfold noChild at h
  unfold walkBit
  split at h
  · next l r hn =>
    rw [hn]
    exact if_pos (by simpa using h)
  · next hn => rw [hn]; exact if_pos h
  · cases h

theorem micro_decPop_byte {b : Byte} (hp : s.phase = .decPop) (hq : s.inq = .byte b :: rest) :
    micro s = decBits 8 { s.popped (.byte b) rest with dbyte := b, dbits := 8 } := by
  rw [micro_decPop hp, decPopMicro, inPop_byte hq]

theorem micro_decPop_eos (hp : s.phase = .decPop) (hq : s.inq = .eos :: rest) :
    micro s = .next ((s.popped .eos rest).raise .payloadExhausted) := by
  rw [micro_decPop hp, decPopMicro, inPop_eos hq]

theorem decNext_of_lt (h : s.decoded < s.expected) (hr : s.root ≠ Config.nil) :
    decNext s = decBits s.dbits.toNat { s with cur := s.root } := by
  rw [decNext, if_pos h, decSymbol, if_neg hr]

theorem decNext_of_done (h : ¬s.decoded < s.expected) : decNext s = .next ({ s with fin := true } : State).finish := by
  rw [decNext, if_neg h]

/-- Settles O45: the micro-step at the InPop, and with EOS at the head of INQ. -/
theorem decOfAnExhaustedPayloadIsCorrupt : Obligations.DecOfAnExhaustedPayloadIsCorrupt := by
  intro s rest hm hp hq
  rw [step_of_no_move hm, micro_decPop_eos hp hq]
  rfl

/-- DEC as accepted, before its first symbol (R204). -/
def State.decStart (s : State) (n : Data) : State :=
  { s.accept (.dec n) with expected := n, decoded := 0, dbyte := 0, dbits := 0, cur := Config.nil }

theorem PaceBlind.pace_eq {f : State → Result} (h : PaceBlind f) (e : f s = .next t) : t.pace = s.pace := by
  obtain ⟨u, -, rfl⟩ := withPaceNext_eq_next.1 ((h s.pace s).symm.trans e)
  rfl

/-- Issuing DEC looks for its first symbol, and takes up to `pace` micro-steps from there (R204). -/
theorem exec_dec_of_pass {n : Data} (hc : checks (.dec n) s = none) :
    exec (.dec n) s = andThen (decNext (s.decStart n)) (runMicro s.pace) := by
  rw [exec, execDec, issued_of_pass hc]
  show andThen (decNext (s.decStart n)) goOn = _
  cases e : decNext (s.decStart n) with
  | next t => exact congrArg (runMicro · t) (paceBlind_decNext.pace_eq (s := s.decStart n) e)
  | fault _ => rfl
  | refused _ => rfl

/-- Settles O42: no symbol is looked for. -/
theorem decOfNothingCompletes : Obligations.DecOfNothingCompletes := by
  intro s hp he ht hf
  rw [exec_dec_of_pass (pass_dec hp he ht hf), decNext_of_done (by simp [State.decStart]), andThen_next, runMicro_idle rfl,
    finish_of_idle (by exact hp)]
  rfl

/-- Settles O43: the first symbol is looked for in no tree. -/
theorem decWithoutATreeIsCorrupt : Obligations.DecWithoutATreeIsCorrupt := by
  intro s n hp he ht hf hr hn
  have more : (s.decStart n).decoded < (s.decStart n).expected := (BitVec.pos_iff_ne_zero n).2 hn
  rw [exec_dec_of_pass (pass_dec hp he ht hf), decNext, if_pos more, decSymbol, if_pos (by exact hr), andThen_next,
    runMicro_idle rfl, raise_of_idle (by exact hp)]
  rfl

end Sys2Proof.Machine

/-! SUPPORT. The paths of a tree as walks through it (43_codebook.md R161). -/

namespace Sys2Proof.Safety

open Sys2Proof.Machine

/-- The subtree that a sequence of bits leads to, where there is one: 0 left, 1 right. -/
def Tree.follow : Tree → List Bool → Option Tree
  | t, [] => some t
  | .leaf _, _ :: _ => none
  | .node l r, v :: p => (if v then r else l).follow p

@[simp] theorem follow_nil (t : Tree) : t.follow [] = some t := by cases t <;> rfl

theorem follow_append (t : Tree) (p q : List Bool) : t.follow (p ++ q) = (t.follow p).bind (·.follow q) := by
  induction p generalizing t with
  | nil => simp
  | cons v p ih =>
    cases t with
    | leaf sym => rfl
    | node l r => exact ih _

theorem follow_of_mem_paths {t : Tree} {sym : Byte} {p : List Bool} (h : (sym, p) ∈ t.paths) :
    t.follow p = some (.leaf sym) := by
  induction t generalizing p with
  | leaf sym' =>
    obtain ⟨rfl, rfl⟩ : sym = sym' ∧ p = [] := by simpa [Tree.paths] using h
    rfl
  | node l r ihl ihr =>
    rcases List.mem_append.1 h with h | h <;> obtain ⟨⟨_, q⟩, hq, e⟩ := List.mem_map.1 h <;> cases e
    · exact ihl hq
    · exact ihr hq

/-- Before its end a path stands at an Internal node. -/
theorem follow_before_end {t : Tree} {sym : Byte} {p q : List Bool} (h : (sym, p ++ q) ∈ t.paths) (hq : q ≠ []) :
    ∃ l r, t.follow p = some (.node l r) := by
  have whole := follow_of_mem_paths h
  rw [follow_append] at whole
  obtain ⟨v, q, rfl⟩ := List.exists_cons_of_ne_nil hq
  obtain ⟨t', ht, last⟩ := Option.bind_eq_some_iff.1 whole
  cases t' with
  | leaf _ => cases last
  | node l r => exact ⟨l, r, ht⟩

/-- The subtree below the root that a sequence of bits leads to, where there is one; a root that is a Leaf has none. -/
def Shaped.follow : Shaped → List Bool → Option Tree
  | .lone t, false :: p => t.follow p
  | .full (.node l r), p => (Tree.node l r).follow p
  | _, _ => none

/-- A code leads to its symbol, but for the one bit that stands for a root that is a Leaf (R162). -/
theorem follow_of_mem_codes {h : Shaped} {x : Byte × List Bool} (hx : x ∈ h.codes) :
    h.follow x.2 = some (.leaf x.1) ∨ h = .full (.leaf x.1) ∧ x.2 = [false] := by
  cases h with
  | empty => cases hx
  | lone t =>
    obtain ⟨y, hy, rfl⟩ := List.mem_map.1 hx
    exact .inl (follow_of_mem_paths hy)
  | full t =>
    cases t with
    | leaf sym =>
      obtain rfl : x = (sym, [false]) := List.mem_singleton.1 hx
      exact .inr ⟨rfl, rfl⟩
    | node l r => exact .inl (follow_of_mem_paths (codes_full l r ▸ hx))

/-- Before its end a code leads nowhere yet, or to an Internal node. -/
theorem follow_before_code_ends {h : Shaped} {sym : Byte} {p q : List Bool} (hx : (sym, p ++ q) ∈ h.codes) (hq : q ≠ []) :
    p = [] ∨ ∃ l r, h.follow p = some (.node l r) := by
  cases p with
  | nil => exact .inl rfl
  | cons v p =>
    right
    cases h with
    | empty => cases hx
    | lone t =>
      obtain ⟨⟨sym', p'⟩, hp, e⟩ := List.mem_map.1 hx
      cases e
      exact follow_before_end hp hq
    | full t =>
      cases t with
      | leaf sym' =>
        have one : (v :: p) ++ q = [false] := congrArg Prod.snd (List.mem_singleton.1 hx)
        simp [hq] at one
      | node l r => exact follow_before_end (codes_full l r ▸ hx) hq

theorem prefix_drop_of_append {α : Type} {p q l : List α} (h : p ++ q <+: l) : q <+: l.drop p.length := by
  obtain ⟨z, rfl⟩ := h
  rw [List.append_assoc, List.drop_left]
  exact List.prefix_append q z

/-- The bits of these codes, one code after the other. -/
def bitsOf (syms : List (Byte × List Bool)) : List Bool := syms.flatMap (·.2)

@[simp] theorem bitsOf_nil : bitsOf [] = [] := rfl

theorem bitsOf_cons (x : Byte × List Bool) (syms : List (Byte × List Bool)) : bitsOf (x :: syms) = x.2 ++ bitsOf syms := rfl

/-- A code has a bit (R33 b, R162). -/
theorem code_ne_nil {h : Shaped} {x : Byte × List Bool} (hx : x ∈ h.codes) : x.2 ≠ [] := by
  cases h with
  | empty => cases hx
  | lone t =>
    obtain ⟨y, -, rfl⟩ := List.mem_map.1 hx
    exact List.cons_ne_nil _ _
  | full t =>
    obtain ⟨y, -, rfl⟩ := List.mem_map.1 hx
    dsimp only
    split
    · exact List.cons_ne_nil _ _
    · assumption

theorem bitsOf_ne_nil {h : Shaped} {syms : List (Byte × List Bool)} (codes : ∀ x ∈ syms, x ∈ h.codes)
    (nonempty : syms ≠ []) : bitsOf syms ≠ [] := by
  obtain ⟨x, syms, rfl⟩ := List.exists_cons_of_ne_nil nonempty
  exact List.append_ne_nil_of_left_ne_nil (code_ne_nil (codes x (List.mem_cons_self ..))) _

/-- Bits that end too early end before or in one of the codes. -/
theorem exists_code_cut_short {syms : List (Byte × List Bool)} {bits : List Bool} (hb : bits <+: bitsOf syms)
    (short : bits.length < (bitsOf syms).length) :
    ∃ front x back p q, syms = front ++ x :: back ∧ x.2 = p ++ q ∧ q ≠ [] ∧ bits = bitsOf front ++ p := by
  induction syms generalizing bits with
  | nil => cases short
  | cons x syms ih =>
    rw [bitsOf_cons] at hb short
    by_cases inside : bits.length < x.2.length
    · obtain ⟨q, hq⟩ := List.prefix_of_prefix_length_le hb (List.prefix_append _ _) inside.le
      refine ⟨[], x, syms, bits, q, rfl, hq.symm, ?_, rfl⟩
      rintro rfl
      simp [← hq] at inside
    · obtain ⟨bits, rfl⟩ := List.prefix_of_prefix_length_le (List.prefix_append _ _) hb (Nat.le_of_not_lt inside)
      obtain ⟨front, y, back, p, q, rfl, hy, hq, rfl⟩ :=
        ih ((List.prefix_append_right_inj x.2).1 hb) (by simpa using short)
      exact ⟨x :: front, y, back, p, q, rfl, hy, hq, by rw [bitsOf_cons, List.append_assoc]⟩

/-- The bits that come next in a payload, one by one. -/
theorem cons_prefix_drop {α : Type} {l p : List α} {c : Nat} {x : α} :
    x :: p <+: l.drop c ↔ l[c]? = some x ∧ p <+: l.drop (c + 1) := by
  by_cases inside : c < l.length
  · rw [List.drop_eq_getElem_cons inside, List.cons_prefix_cons, List.getElem?_eq_getElem inside, Option.some.injEq,
      eq_comm]
  · rw [List.drop_eq_nil_of_le (by omega), List.getElem?_eq_none (by omega)]
    simp

end Sys2Proof.Safety

/-! SUPPORT. DEC bit by bit (45_bitstream.md R205, R206): where it stands is told by the number of payload bits it has taken. -/

namespace Sys2Proof.Machine

open Sys2Proof.Safety

variable {s : State} {k : State → Result} {payload out : List Byte} {rest : List Item} {c n : Nat} {i : NodeIdx} {v : Bool}

/-! ### The point a walk comes from -/

/-- The operation does not read the point the command stands at, and sets it anew. -/
def PhaseBlind (f : State → Result) : Prop := ∀ (s : State) (p : Phase), f { s with phase := p } = f s

theorem walkTo_phaseBlind (hk : PhaseBlind k) (child : NodeIdx) : PhaseBlind (walkTo child · k) := by
  intro s p
  simp only [walkTo]
  split
  · rfl
  · split
    · rfl
    · rfl
    · exact hk { s with cur := child } p

theorem walkBit_phaseBlind (hk : PhaseBlind k) (v : Bool) : PhaseBlind (walkBit v · k) := by
  intro s p
  simp only [walkBit]
  split
  · rfl
  · split <;> rfl
  · exact walkTo_phaseBlind hk _ s p

theorem decBits_phaseBlind (n : Nat) : PhaseBlind (decBits n) := by
  induction n with
  | zero => exact fun _ _ => rfl
  | succ n ih => exact fun s p => walkBit_phaseBlind ih s.dbyte.msb s.bitTaken p

theorem decNext_phaseBlind : PhaseBlind decNext := by
  intro s p
  simp only [decNext, decSymbol]
  split
  · split
    · rfl
    · exact decBits_phaseBlind _ { s with cur := s.root } p
  · rfl

/-! ### The unpacker (R205) -/

/-- How many bits of the byte popped last are not yet taken, when `c` bits of the payload are. -/
def unread (c : Nat) : Nat := (8 - c % 8) % 8

/-- That byte, with the bits taken shifted out. -/
def unreadByte (payload : List Byte) (c : Nat) : Byte := if c % 8 = 0 then 0 else payload.getD (c / 8) 0 <<< (c % 8)

/-- DEC, accepted in state `s`, at the node `cur`: it has taken `c` bits of the payload, and the symbols `out` are delivered. -/
def State.decoding (s : State) (payload : List Byte) (rest : List Item) (out : List Byte) (c : Nat) (cur : NodeIdx) : State :=
  { s.wrote out with
    phase := .decPop, decoded := BitVec.ofNat 64 out.length, incnt := BitVec.ofNat 64 ((c + 7) / 8)
    inq := (payload.drop ((c + 7) / 8)).map .byte ++ rest
    dbyte := unreadByte payload c, dbits := BitVec.ofNat 4 (unread c), cur := cur }

@[simp] theorem decoding_nodes (i : NodeIdx) : (s.decoding payload rest out c i).nodes = s.nodes := wrote_nodes s out
@[simp] theorem decoding_root (i : NodeIdx) : (s.decoding payload rest out c i).root = s.root := by
  rw [State.decoding, wrote_eq]
@[simp] theorem decoding_expected (i : NodeIdx) : (s.decoding payload rest out c i).expected = s.expected := by
  rw [State.decoding, wrote_eq]
@[simp] theorem decoding_dbits (i : NodeIdx) : (s.decoding payload rest out c i).dbits.toNat = unread c := by
  show (BitVec.ofNat 4 (unread c)).toNat = _
  rw [BitVec.toNat_ofNat, unread]
  omega

theorem byte_of_bit (hv : (payloadBits payload)[c]? = some v) :
    ∃ b, payload[c / 8]? = some b ∧ b.getMsbD (c % 8) = v := by
  rw [payloadBits_getElem?] at hv
  exact Option.map_eq_some_iff.1 hv

theorem shiftLeft_eight (b : Byte) : b <<< 8 = 0 := by
  apply BitVec.eq_of_toNat_eq
  simp

/-- The byte after one more bit is taken. -/
theorem unreadByte_succ {b : Byte} (hb : payload[c / 8]? = some b) : unreadByte payload (c + 1) = b <<< (c % 8 + 1) := by
  rw [unreadByte]
  split
  · rw [show c % 8 + 1 = 8 by omega, shiftLeft_eight]
  · rw [show (c + 1) / 8 = c / 8 by omega, show (c + 1) % 8 = c % 8 + 1 by omega]
    simp [hb]

/-- A bit left in DBYTE is taken from there (R205). -/
theorem bitTaken_decoding (inside : c % 8 ≠ 0) {b : Byte} (hb : payload[c / 8]? = some b) :
    (s.decoding payload rest out c i).bitTaken = s.decoding payload rest out (c + 1) i := by
  have left : unread c = unread (c + 1) + 1 := by unfold unread; omega
  have byte : unreadByte payload (c + 1) = unreadByte payload c <<< 1 := by
    rw [unreadByte_succ hb, unreadByte, if_neg inside, BitVec.shiftLeft_add]
    simp [hb]
  have bits : BitVec.ofNat 4 (unread (c + 1)) = BitVec.ofNat 4 (unread c) - 1 := by
    rw [left, BitVec.ofNat_add]
    exact (BitVec.add_sub_cancel _ _).symm
  rw [State.decoding, State.decoding, byte, bits, show (c + 1 + 7) / 8 = (c + 7) / 8 by omega]
  rfl

/-- A bit that is the first of its byte is taken after the byte is popped (R205). -/
theorem bitTaken_popped_decoding (start : c % 8 = 0) {b : Byte} (hb : payload[c / 8]? = some b) :
    ({ (s.decoding payload rest out c i).popped (.byte b) ((payload.drop (c / 8 + 1)).map .byte ++ rest) with
        dbyte := b, dbits := 8 } : State).bitTaken =
      s.decoding payload rest out (c + 1) i := by
  have byte : unreadByte payload (c + 1) = b <<< 1 := by rw [unreadByte_succ hb, start]
  have bits : BitVec.ofNat 4 (unread (c + 1)) = 8 - 1 := by rw [show unread (c + 1) = 7 by unfold unread; omega]; rfl
  rw [State.decoding, State.decoding, byte, bits, show (c + 1 + 7) / 8 = c / 8 + 1 by omega,
    show (c + 7) / 8 = c / 8 by omega, BitVec.ofNat_add]
  rfl

/-- NextBit: the bit is walked on, from DBYTE or from the next byte of the payload, which takes one micro-step (R205). -/
theorem decBits_nextBit (hv : (payloadBits payload)[c]? = some v) (n : Nat) :
    andThen (decBits (unread c) (s.decoding payload rest out c i)) (runMicro ((c + 8) / 8 - (c + 7) / 8 + n)) =
      andThen (walkBit v (s.decoding payload rest out (c + 1) i) (decBits (unread (c + 1)))) (runMicro n) := by
  obtain ⟨b, hb, rfl⟩ := byte_of_bit hv
  by_cases start : c % 8 = 0
  · have queue : (s.decoding payload rest out c i).inq = .byte b :: ((payload.drop (c / 8 + 1)).map .byte ++ rest) := by
      obtain ⟨inside, e⟩ := List.getElem?_eq_some_iff.1 hb
      show (payload.drop ((c + 7) / 8)).map Item.byte ++ rest = _
      rw [show (c + 7) / 8 = c / 8 by omega, List.drop_eq_getElem_cons inside, e]
      rfl
    rw [show (c + 8) / 8 - (c + 7) / 8 + n = n + 1 by omega, show unread c = 0 by unfold unread; omega, decBits,
      andThen_next, show unread (c + 1) = 7 by unfold unread; omega, ← bitTaken_popped_decoding start hb, start]
    exact (runMicro_enabled (enabled_of_atPop (.inl (by simp [State.decoding])) queue) n).trans
      (congrArg (andThen · (runMicro n)) (micro_decPop_byte rfl queue))
  · have bit : (s.decoding payload rest out c i).dbyte.msb = b.getMsbD (c % 8) := by
      show (unreadByte payload c).msb = _
      rw [unreadByte, if_neg start, BitVec.msb, BitVec.getMsbD_shiftLeft]
      simp [hb]
    rw [show (c + 8) / 8 - (c + 7) / 8 + n = n by omega, show unread c = unread (c + 1) + 1 by unfold unread; omega,
      decBits, bit, bitTaken_decoding start hb]

end Sys2Proof.Machine

/-! SUPPORT. DEC symbol by symbol (45_bitstream.md R204, R206): it follows the codes in front of the payload, and the statements
about its whole run. -/

namespace Sys2Proof.Machine

open Sys2Proof.Safety

variable {s : State} {k : State → Result} {payload out : List Byte} {rest : List Item} {c : Nat} {i : NodeIdx}
  {syms : List (Byte × List Bool)} {h : Shaped}

/-! ### One node -/

theorem walkTo_internal {w : Data} {a b : NodeIdx} (hi : i ≠ Config.nil)
    (hn : nodeAt s.nodes i = some (.internal w a b)) : walkTo i s k = k { s with cur := i } := by
  rw [walkTo, if_neg hi, hn]

theorem walkTo_leaf {sym : Byte} {w : Data} (hi : i ≠ Config.nil) (hn : nodeAt s.nodes i = some (.leaf sym w)) :
    walkTo i s k = .next { s with cur := i, phase := .decPush sym } := by
  rw [walkTo, if_neg hi, hn]

theorem walkBit_internal {v : Bool} {w : Data} {a b : NodeIdx} (hn : nodeAt s.nodes s.cur = some (.internal w a b)) :
    walkBit v s k = walkTo (if v then b else a) s k := by
  rw [walkBit, hn]

theorem walkBit_leaf {sym : Byte} {w : Data} (hn : nodeAt s.nodes s.cur = some (.leaf sym w)) :
    walkBit false s k = .next { s with phase := .decPush sym } := by
  rw [walkBit, hn]
  rfl

/-! ### One code -/

/-- DEC follows the bits that come next through a held tree, popping the bytes they are in (R206). -/
theorem walkTo_follow {t t' : Tree} {p : List Bool} (held : t.heldAt s.nodes i = true) (hi : i ≠ Config.nil)
    (hp : t.follow p = some t') (bits : p <+: (payloadBits payload).drop c) (n : Nat) (i₀ : NodeIdx) :
    ∃ j j₀, t'.heldAt s.nodes j = true ∧ j ≠ Config.nil ∧
      andThen (walkTo i (s.decoding payload rest out c i₀) (decBits (unread c)))
          (runMicro ((c + p.length + 7) / 8 - (c + 7) / 8 + n)) =
        andThen (walkTo j (s.decoding payload rest out (c + p.length) j₀) (decBits (unread (c + p.length))))
          (runMicro n) := by
  induction p generalizing t i c i₀ with
  | nil =>
    cases (follow_nil t).symm.trans hp
    exact ⟨i, i₀, held, hi, by simp⟩
  | cons v p ih =>
    cases t with
    | leaf _ => cases hp
    | node l r =>
      obtain ⟨w, a, b, hn, ha, hb, hl, hr⟩ := heldAt_node.1 held
      obtain ⟨bit, bits⟩ := cons_prefix_drop.1 bits
      have child : (if v then r else l).heldAt s.nodes (if v then b else a) = true ∧
          (if v then b else a) ≠ Config.nil := by cases v <;> exact ⟨‹_›, ‹_›⟩
      obtain ⟨j, j₀, heldj, hj, run⟩ := ih child.1 child.2 hp bits i
      refine ⟨j, j₀, heldj, hj, ?_⟩
      have steps : (c + (v :: p).length + 7) / 8 - (c + 7) / 8 + n =
          (c + 8) / 8 - (c + 7) / 8 + ((c + 1 + p.length + 7) / 8 - (c + 1 + 7) / 8 + n) := by
        rw [List.length_cons]
        omega
      rw [steps, walkTo_internal hi (by rwa [decoding_nodes])]
      refine (decBits_nextBit bit _).trans ?_
      rw [walkBit_internal (by rw [decoding_nodes]; exact hn), run, List.length_cons, Nat.add_right_comm, Nat.add_assoc]

/-- A tree with a code has a root. -/
theorem root_ne_nil_of_mem_codes (held : h.heldAt s.nodes s.root = true) {x : Byte × List Bool} (hx : x ∈ h.codes) :
    s.root ≠ Config.nil := by
  cases h with
  | empty => cases hx
  | lone t => exact (heldAt_lone.1 held).1
  | full t => exact (heldAt_full.1 held).1

/-- The same from the root (R206). -/
theorem decBits_follow {t : Tree} {p : List Bool} (held : h.heldAt s.nodes s.root = true) (hp : h.follow p = some t)
    (bits : p <+: (payloadBits payload).drop c) (n : Nat) :
    ∃ j j₀, t.heldAt s.nodes j = true ∧ j ≠ Config.nil ∧
      andThen (decBits (unread c) (s.decoding payload rest out c s.root))
          (runMicro ((c + p.length + 7) / 8 - (c + 7) / 8 + n)) =
        andThen (walkTo j (s.decoding payload rest out (c + p.length) j₀) (decBits (unread (c + p.length))))
          (runMicro n) := by
  unfold Shaped.follow at hp
  split at hp
  · next t₀ p =>
    obtain ⟨-, w, a, hn, ha, ht⟩ := heldAt_lone.1 held
    obtain ⟨bit, bits⟩ := cons_prefix_drop.1 bits
    obtain ⟨j, j₀, heldj, hj, run⟩ := walkTo_follow (out := out) (rest := rest) ht ha hp bits n s.root
    refine ⟨j, j₀, heldj, hj, ?_⟩
    have steps : (c + (false :: p).length + 7) / 8 - (c + 7) / 8 + n =
        (c + 8) / 8 - (c + 7) / 8 + ((c + 1 + p.length + 7) / 8 - (c + 1 + 7) / 8 + n) := by
      rw [List.length_cons]
      omega
    rw [steps, decBits_nextBit bit, walkBit_internal (by rw [decoding_nodes]; exact hn)]
    refine run.trans ?_
    rw [List.length_cons, Nat.add_right_comm, Nat.add_assoc]
  · next l r p =>
    obtain ⟨hroot, ht⟩ := heldAt_full.1 held
    obtain ⟨w, a, b, hn, -⟩ := heldAt_node.1 ht
    obtain ⟨j, j₀, heldj, hj, run⟩ := walkTo_follow (out := out) (rest := rest) ht hroot hp bits n s.root
    rw [walkTo_internal hroot (by rwa [decoding_nodes])] at run
    exact ⟨j, j₀, heldj, hj, run⟩
  · cases hp

/-- DEC takes the bits of a code from the root and finds its symbol (R206). -/
theorem decBits_code (held : h.heldAt s.nodes s.root = true) {x : Byte × List Bool} (hx : x ∈ h.codes)
    (bits : x.2 <+: (payloadBits payload).drop c) (n : Nat) :
    ∃ j, andThen (decBits (unread c) (s.decoding payload rest out c s.root))
        (runMicro ((c + x.2.length + 7) / 8 - (c + 7) / 8 + n)) =
      runMicro n { s.decoding payload rest out (c + x.2.length) j with phase := .decPush x.1 } := by
  rcases follow_of_mem_codes hx with leads | ⟨rfl, one⟩
  · obtain ⟨j, j₀, heldj, hj, run⟩ := decBits_follow (out := out) (rest := rest) held leads bits n
    obtain ⟨w, hn⟩ := heldAt_leaf.1 heldj
    rw [walkTo_leaf hj (by rwa [decoding_nodes])] at run
    exact ⟨j, run⟩
  · obtain ⟨w, hn⟩ := heldAt_leaf.1 (heldAt_full.1 held).2
    rw [one] at bits ⊢
    refine ⟨s.root, (decBits_nextBit (cons_prefix_drop.1 bits).1 n).trans ?_⟩
    rw [walkBit_leaf (by rw [decoding_nodes]; exact hn)]
    rfl

/-- DEC takes the first bits of a code from the root, and needs another one (R206). -/
theorem decBits_part (held : h.heldAt s.nodes s.root = true) {sym : Byte} {p q : List Bool} (hx : (sym, p ++ q) ∈ h.codes)
    (hq : q ≠ []) (bits : p <+: (payloadBits payload).drop c) (n : Nat) :
    ∃ j, andThen (decBits (unread c) (s.decoding payload rest out c s.root))
        (runMicro ((c + p.length + 7) / 8 - (c + 7) / 8 + n)) =
      andThen (decBits (unread (c + p.length)) (s.decoding payload rest out (c + p.length) j)) (runMicro n) := by
  rcases follow_before_code_ends hx hq with rfl | ⟨l, r, leads⟩
  · exact ⟨s.root, by simp⟩
  · obtain ⟨j, j₀, heldj, hj, run⟩ := decBits_follow (out := out) (rest := rest) held leads bits n
    obtain ⟨w, a, b, hn, -⟩ := heldAt_node.1 heldj
    rw [walkTo_internal hj (by rwa [decoding_nodes])] at run
    exact ⟨j, run⟩

/-! ### The symbols of a payload -/

/-- The state after the sink took a symbol: DECODED counts it (R204, R274 e). -/
def State.delivered (s : State) (sym : Byte) : State := { s.pushed sym with decoded := s.decoded + 1 }

theorem micro_decPush_ok {sym : Byte} (hp : s.phase = .decPush sym) (ok : s.nextAnswer = some .ok) :
    micro s = decNext (s.delivered sym) := by
  rw [micro_decPush hp, decPushMicro, outPush_ok ok]
  rfl

theorem delivered_decoding (sym : Byte) :
    (s.decoding payload rest out c i).delivered sym = s.decoding payload rest (out ++ [sym]) c i := by
  have counted : BitVec.ofNat 64 (out ++ [sym]).length = BitVec.ofNat 64 out.length + 1 := by
    rw [List.length_append, BitVec.ofNat_add]
    rfl
  rw [State.decoding, State.decoding, wrote_append, counted]
  rfl

/-- The symbol at hand is delivered and counted, and the next one looked for (R204). -/
theorem runMicro_decPush {sym : Byte} (takes : sinkTakes (out.length + 1) s = true) (n : Nat) :
    runMicro (n + 1) { s.decoding payload rest out c i with phase := .decPush sym } =
      andThen (decNext (s.decoding payload rest (out ++ [sym]) c i)) (runMicro n) := by
  have ok : ({ s.decoding payload rest out c i with phase := .decPush sym } : State).nextAnswer = some .ok :=
    (nextAnswer_congr rfl rfl).trans (nextAnswer_of_sinkTakes (sinkTakes_wrote takes))
  rw [runMicro_enabled (enabled_of_atPush (.inr (.inr (.inr (.inr ⟨sym, rfl⟩)))) ok), micro_decPush_ok rfl ok,
    ← delivered_decoding]
  exact congrArg (andThen · (runMicro n))
    (decNext_phaseBlind ((s.decoding payload rest out c i).delivered sym) (.decPush sym))

/-- While more symbols are expected DEC walks from the root (R204, R206). -/
theorem decNext_decoding (more : out.length < s.expected.toNat) (hr : s.root ≠ Config.nil) :
    decNext (s.decoding payload rest out c i) = decBits (unread c) (s.decoding payload rest out c s.root) := by
  have lt : (s.decoding payload rest out c i).decoded < (s.decoding payload rest out c i).expected := by
    rw [decoding_expected, BitVec.lt_def]
    show (BitVec.ofNat 64 out.length).toNat < _
    rw [BitVec.toNat_ofNat]
    exact (Nat.mod_le _ _).trans_lt more
  rw [decNext_of_lt lt (by rwa [decoding_root]), decoding_dbits]
  exact congrArg (fun r => decBits (unread c) (s.decoding payload rest out c r)) (decoding_root i)

/-- DEC delivers the symbols whose codes come next, in a push for each and a pop for each byte they reach into (R204). -/
theorem runMicro_decNext (syms : List (Byte × List Bool)) (held : h.heldAt s.nodes s.root = true)
    (hsyms : ∀ x ∈ syms, x ∈ h.codes) (bits : bitsOf syms <+: (payloadBits payload).drop c)
    (room : out.length + syms.length ≤ s.expected.toNat) (takes : sinkTakes (out.length + syms.length) s = true) (n : Nat) :
    ∃ j, andThen (decNext (s.decoding payload rest out c i))
        (runMicro (syms.length + ((c + (bitsOf syms).length + 7) / 8 - (c + 7) / 8) + n)) =
      andThen (decNext (s.decoding payload rest (out ++ syms.map (·.1)) (c + (bitsOf syms).length) j))
        (runMicro n) := by
  induction syms generalizing out c i with
  | nil => exact ⟨i, by simp⟩
  | cons x syms ih =>
    have hx := hsyms x (List.mem_cons_self ..)
    rw [bitsOf_cons] at bits ⊢
    rw [List.length_cons] at room takes
    have bitsx : x.2 <+: (payloadBits payload).drop c := (List.prefix_append _ _).trans bits
    have bits' : bitsOf syms <+: (payloadBits payload).drop (c + x.2.length) := by
      rw [← List.drop_drop]
      exact prefix_drop_of_append bits
    have len : (out ++ [x.1]).length = out.length + 1 := List.length_append
    obtain ⟨j, code⟩ := decBits_code (out := out) (rest := rest) held hx bitsx
      (syms.length + ((c + x.2.length + (bitsOf syms).length + 7) / 8 - (c + x.2.length + 7) / 8) + n + 1)
    obtain ⟨j', run⟩ := ih (out := out ++ [x.1]) (c := c + x.2.length) (i := j)
      (fun y hy => hsyms y (List.mem_cons_of_mem x hy)) bits' (by omega) (sinkTakes_le takes (by omega))
    refine ⟨j', ?_⟩
    rw [decNext_decoding (by omega) (root_ne_nil_of_mem_codes held hx), List.length_append, List.map_cons, ← Nat.add_assoc,
      List.append_cons, ← run, ← runMicro_decPush (sinkTakes_le takes (by omega)), ← code, List.length_cons]
    congr 2
    omega

end Sys2Proof.Machine

/-! SUPPORT. The whole command DEC (45_bitstream.md R204 to R207, R210), and the statements about it. -/

namespace Sys2Proof.Machine

open Sys2Proof.Safety

variable {s : State} {payload : List Byte} {rest : List Item} {syms : List (Byte × List Bool)} {h : Shaped} {n : Data}

/-- What issuing DEC needs to be accepted (R97), a payload in front of INQ that starts with the codes of `syms` under the held
tree, as many symbols expected, a sink that takes them, and the pace to write them (log entry 3). -/
structure DecReady (s : State) (h : Shaped) (syms : List (Byte × List Bool)) (payload : List Byte) (rest : List Item)
    (n : Data) : Prop where
  idle : s.phase = .idle
  err : s.err = false
  tv : s.tv = true
  fin : s.fin = false
  held : h.heldAt s.nodes s.root = true
  codes : ∀ x ∈ syms, x ∈ h.codes
  bits : bitsOf syms <+: payloadBits payload
  inq : s.inq = payload.map .byte ++ rest
  room : syms.length ≤ n.toNat
  takes : sinkTakes syms.length s = true
  pace : syms.length + ((bitsOf syms).length + 7) / 8 ≤ s.pace

theorem decoding_start (hq : s.inq = payload.map Item.byte ++ rest) (n : Data) :
    (s.decStart n).decoding payload rest [] 0 Config.nil = { s.decStart n with phase := .decPop } := by
  show { s.decStart n with phase := Phase.decPop, inq := payload.map Item.byte ++ rest } = _
  rw [← hq]
  rfl

/-- DEC delivers the symbols and takes what is left of the pace from there. -/
theorem DecReady.exec_dec (ready : DecReady s h syms payload rest n) :
    ∃ i, exec (.dec n) s = andThen
      (decNext ((s.decStart n).decoding payload rest (syms.map (·.1)) (bitsOf syms).length i))
      (runMicro (s.pace - (syms.length + ((bitsOf syms).length + 7) / 8))) := by
  have room : ([] : List Byte).length + syms.length ≤ (s.decStart n).expected.toNat := by
    rw [List.length_nil, Nat.zero_add]
    exact ready.room
  have takes : sinkTakes (([] : List Byte).length + syms.length) (s.decStart n) = true := by
    rw [List.length_nil, Nat.zero_add]
    exact ready.takes
  obtain ⟨i, run⟩ := runMicro_decNext (s := s.decStart n) (c := 0) (i := Config.nil) (rest := rest) syms ready.held
    ready.codes ready.bits room takes (s.pace - (syms.length + ((bitsOf syms).length + 7) / 8))
  rw [decoding_start ready.inq, decNext_phaseBlind, Nat.zero_add, List.nil_append,
    show ((bitsOf syms).length + 7) / 8 - (0 + 7) / 8 = ((bitsOf syms).length + 7) / 8 from rfl,
    Nat.add_sub_of_le ready.pace] at run
  exact ⟨i, by rw [exec_dec_of_pass (pass_dec ready.idle ready.err ready.tv ready.fin), run]⟩

/-- With more symbols expected it then stands at the root again. -/
theorem DecReady.exec_dec_more (ready : DecReady s h syms payload rest n) (more : syms.length < n.toNat)
    (hr : s.root ≠ Config.nil) : exec (.dec n) s = andThen
      (decBits (unread (bitsOf syms).length)
        ((s.decStart n).decoding payload rest (syms.map (·.1)) (bitsOf syms).length s.root))
      (runMicro (s.pace - (syms.length + ((bitsOf syms).length + 7) / 8))) := by
  obtain ⟨i, run⟩ := ready.exec_dec
  have more' : (syms.map (·.1)).length < (s.decStart n).expected.toNat := by
    rw [List.length_map]
    exact more
  exact run.trans (congrArg (andThen · _) (decNext_decoding more' hr))

/-- What a point of DEC's run is, written out. -/
theorem decoding_eq (s : State) (n : Data) (out : List Byte) (c : Nat) (i : NodeIdx) :
    { (s.decStart n).decoding payload rest out c i with phase := s.phase } = { s with
      curop := 0x51, incnt := BitVec.ofNat 64 ((c + 7) / 8), outcnt := BitVec.ofNat 64 out.length, expected := n
      decoded := BitVec.ofNat 64 out.length, inq := (payload.drop ((c + 7) / 8)).map .byte ++ rest
      outq := s.outq ++ out, sinkAnswers := s.sinkAnswers.drop out.length
      dbyte := unreadByte payload c, dbits := BitVec.ofNat 4 (unread c), cur := i } := by
  have counted : (s.decStart n).outcnt + BitVec.ofNat 64 out.length = BitVec.ofNat 64 out.length := BitVec.zero_add _
  rw [State.decoding, wrote_eq, counted]
  rfl

/-- An error leaves nothing of the point it was raised at. -/
theorem raise_decoding (hp : s.phase = .idle) (n : Data) (out : List Byte) (c : Nat) (i : NodeIdx) (e : Err) :
    ((s.decStart n).decoding payload rest out c i).raise e =
      { { (s.decStart n).decoding payload rest out c i with phase := s.phase } with
        err := true, errcode := e.code, errsub := e.sub, rsps := s.rsps ++ [⟨respErr, 0⟩] } := by
  have same : (((s.decStart n).decoding payload rest out c i).raise e) =
      State.raise { (s.decStart n).decoding payload rest out c i with phase := s.phase } e := rfl
  rw [same, decoding_eq, raise_of_idle (by exact hp)]

/-- Settles O41: the symbols are delivered (`DecReady.exec_dec`), and no more are expected. -/
theorem decWalksTheTree : Obligations.DecWalksTheTree := by
  intro s h syms payload rest hp he ht hf held codes few bits len hq takes pace
  have small : (BitVec.ofNat 64 syms.length).toNat = syms.length := Nat.mod_eq_of_lt few
  obtain ⟨i, run⟩ := DecReady.exec_dec (n := BitVec.ofNat 64 syms.length) ⟨hp, he, ht, hf, held, codes,
    List.prefix_iff_eq_take.2 bits.symm, hq, small.ge, takes, len ▸ pace⟩
  have done : ¬((s.decStart (BitVec.ofNat 64 syms.length)).decoding payload rest (syms.map (·.1)) (bitsOf syms).length
      i).decoded < ((s.decStart (BitVec.ofNat 64 syms.length)).decoding payload rest (syms.map (·.1))
      (bitsOf syms).length i).expected := by
    rw [decoding_expected, State.decoding, List.length_map]
    exact BitVec.lt_irrefl _
  refine ⟨unreadByte payload (bitsOf syms).length, BitVec.ofNat 4 (unread (bitsOf syms).length), i, ?_⟩
  rw [run, decNext_of_done done, andThen_next, runMicro_idle rfl]
  show Host.Outcome.next (State.finish { { State.decoding _ payload rest _ (bitsOf syms).length i with phase := s.phase } with
    fin := true }) = _
  rw [decoding_eq, finish_of_idle (by exact hp), List.length_map, bitsOf, ← len, List.drop_length]
  rfl

/-- Settles O44: the bit after the codes is taken at the root, where there is no child on its side; the micro-steps take one
such bit each. -/
theorem decOfAMissingChildIsCorrupt : Obligations.DecOfAMissingChildIsCorrupt := by
  refine ⟨?wholeRun, ?firstBit, ?nextBit⟩
  case wholeRun =>
    intro s h syms payload n rest hp he ht hf held hr missing codes few bits len hq takes pace
    have prefixed : bitsOf syms ++ [true] <+: payloadBits payload :=
      List.prefix_iff_eq_take.2 (by rw [List.length_append]; exact bits.symm)
    obtain ⟨bit, -⟩ := cons_prefix_drop.1 (prefix_drop_of_append prefixed)
    have ready : DecReady s h syms payload rest n := ⟨hp, he, ht, hf, held, codes, (List.prefix_append _ _).trans prefixed,
      hq, few.le, takes, by rw [bitsOf]; omega⟩
    have steps : s.pace - (syms.length + ((bitsOf syms).length + 7) / 8) =
        ((bitsOf syms).length + 8) / 8 - ((bitsOf syms).length + 7) / 8 + (s.pace - (syms.length + payload.length)) := by
      rw [len, bitsOf] at *
      omega
    refine ⟨unreadByte payload ((bitsOf syms).length + 1), BitVec.ofNat 4 (unread ((bitsOf syms).length + 1)), ?_⟩
    rw [ready.exec_dec_more few hr, steps, decBits_nextBit bit,
      walkBit_noChild (by rw [decoding_nodes]; exact missing), andThen_next, runMicro_idle rfl, raise_decoding hp,
      decoding_eq, List.length_map, show ((bitsOf syms).length + 1 + 7) / 8 = payload.length from len.symm,
      List.drop_length]
    rfl
  case firstBit =>
    intro s b rest hm hp hq missing
    have seven : (7 : BitVec 4) = 8 - 1 := rfl
    rw [step_of_no_move hm, micro_decPop_byte hp hq, decBits, seven]
    exact walkBit_noChild missing
  case nextBit =>
    intro s sym hm hp takes more hr left missing
    obtain ⟨m, hm'⟩ := Nat.exists_eq_succ_of_ne_zero fun e => left (BitVec.eq_of_toNat_eq e)
    calc step s
      _ = decNext (s.delivered sym) := by
        rw [step_of_no_move hm, micro_decPush_ok hp (nextAnswer_of_sinkTakes takes)]
      _ = decBits (m + 1) { s.delivered sym with cur := s.root } :=
        (decNext_of_lt (s := s.delivered sym) more hr).trans (congrArg (decBits · _) hm')
      _ = _ := walkBit_noChild missing

/-! ### A payload that ends too early -/

/-- With all bits taken, the next one is asked of EOS (R205). -/
theorem runMicro_exhausted (out : List Byte) (j : NodeIdx) (m : Nat) :
    andThen (decBits (unread (8 * payload.length)) (s.decoding payload (.eos :: rest) out (8 * payload.length) j))
        (runMicro (m + 1)) =
      .next ((s.decoding payload rest out (8 * payload.length) j).raise .payloadExhausted) := by
  have popped : (8 * payload.length + 7) / 8 = payload.length := by omega
  have queue : (s.decoding payload (.eos :: rest) out (8 * payload.length) j).inq = .eos :: rest := by
    rw [State.decoding, popped, List.drop_length]
    rfl
  have stands : decBits (unread (8 * payload.length)) (s.decoding payload (.eos :: rest) out (8 * payload.length) j) =
      .next (s.decoding payload (.eos :: rest) out (8 * payload.length) j) := by
    rw [show unread (8 * payload.length) = 0 by unfold unread; omega]
    rfl
  rw [stands, andThen_next,
    runMicro_of_ends (enabled_of_atPop (.inl (by simp [State.decoding])) queue) (micro_decPop_eos rfl queue) rfl,
    State.decoding, State.decoding, popped, List.drop_length]
  rfl

/-- DEC of a payload that ends, before or in the code of a symbol still expected, delivers the symbols before it (R205). -/
theorem DecReady.exec_dec_exhausted {sym : Byte} {p q : List Bool} (ready : DecReady s h syms payload (.eos :: rest) n)
    (more : syms.length < n.toNat) (code : (sym, p ++ q) ∈ h.codes) (hq : q ≠ [])
    (cut : payloadBits payload = bitsOf syms ++ p) (pace : syms.length + payload.length + 1 ≤ s.pace) :
    ∃ j, exec (.dec n) s =
      .next (((s.decStart n).decoding payload rest (syms.map (·.1)) (8 * payload.length) j).raise .payloadExhausted) := by
  have size : 8 * payload.length = (bitsOf syms).length + p.length := by
    rw [← length_payloadBits, cut, List.length_append]
  obtain ⟨m, left⟩ : ∃ m, s.pace = syms.length + payload.length + (m + 1) :=
    ⟨s.pace - (syms.length + payload.length + 1), by omega⟩
  have steps : s.pace - (syms.length + ((bitsOf syms).length + 7) / 8) =
      ((bitsOf syms).length + p.length + 7) / 8 - ((bitsOf syms).length + 7) / 8 + (m + 1) := by omega
  obtain ⟨j, walk⟩ := decBits_part (s := s.decStart n) (out := syms.map (·.1)) (rest := .eos :: rest) ready.held code hq
    (prefix_drop_of_append ⟨[], by rw [cut, List.append_nil]⟩) (m + 1)
  refine ⟨j, ?_⟩
  rw [ready.exec_dec_more more (root_ne_nil_of_mem_codes ready.held code), steps]
  exact walk.trans (size ▸ runMicro_exhausted _ j m)

/-- Settles O46: the bits that are left end before or in the code of a symbol; the symbols before it are delivered, and the
walk to it pops EOS. -/
theorem decOfATruncatedPayloadIsCorrupt : Obligations.DecOfATruncatedPayloadIsCorrupt := by
  intro s h syms rest hp he ht hf held codes nonempty few hq takes pace
  obtain ⟨payload, last, whole⟩ := exists_payload_of_packed (bitsOf_ne_nil codes nonempty)
  rw [← bitsOf, whole] at hq pace ⊢
  rw [List.dropLast_concat] at hq
  rw [List.length_append, List.length_singleton] at pace ⊢
  obtain ⟨cut, short⟩ := payloadBits_prefix_of_packed whole
  obtain ⟨front, x, back, p, q, rfl, hx, hq', cutAt⟩ := exists_code_cut_short cut short
  generalize hn : BitVec.ofNat 64 (front ++ x :: back).length = n
  have less : front.length < (front ++ x :: back).length := by rw [List.length_append, List.length_cons]; omega
  have more : front.length < n.toNat := by rw [← hn, BitVec.toNat_ofNat, Nat.mod_eq_of_lt few]; exact less
  have fits : ((bitsOf front).length + 7) / 8 ≤ payload.length := by
    have size := congrArg List.length cutAt
    rw [length_payloadBits, List.length_append] at size
    omega
  obtain ⟨j, run⟩ := DecReady.exec_dec_exhausted (n := n) (syms := front) (sym := x.1) (p := p) (q := q)
    ⟨hp, he, ht, hf, held, fun y hy => codes y (List.mem_append_left _ hy), ⟨p, cutAt.symm⟩, hq, more.le,
      sinkTakes_le takes less.le, by omega⟩
    more (hx ▸ codes x (List.mem_append_right _ (List.mem_cons_self ..))) hq' cutAt (by omega)
  refine ⟨front.length, unreadByte payload (8 * payload.length), BitVec.ofNat 4 (unread (8 * payload.length)), j, less, ?_⟩
  rw [run, raise_decoding hp, decoding_eq, List.length_map, show (8 * payload.length + 7) / 8 = payload.length by omega,
    List.drop_length, List.take_left, Nat.add_sub_cancel]
  rfl

end Sys2Proof.Machine

/-! SUPPORT. A script of host moves run to its end (30_encoding.md R101, R102): what each command of the flows does to an idle
core whose sink takes everything. -/

namespace Sys2Proof.Machine

open Sys2Proof.Safety

variable {s t u : State} {more : List Move} {pace : Nat} {inq : List Item} {outq src : List Byte}
  {fv tv bv fin : Bool} {rest : List Item} {h : Shaped} {freq : Vector Data 256} {syms : List (Byte × List Bool)}

/-! ### Running a script -/

/-- `k` steps lead from the first state to the second. -/
inductive Steps : Nat → State → State → Prop
  | zero (s : State) : Steps 0 s s
  | succ {k : Nat} {s t u : State} (first : step s = .next t) (others : Steps k t u) : Steps (k + 1) s u

theorem run_succ {M : Host.Core} {s t : M.State} (k : Nat) (h : M.step s = .next t) : M.run (k + 1) s = M.run k t := by
  rw [Host.Core.run, h]

theorem Steps.run {k : Nat} (h : Steps k s t) : Host.Core.run Sys2Proof.core k s = .next t := by
  induction h with
  | zero s => rfl
  | succ first _ ih => exact (run_succ (M := Sys2Proof.core) _ first).trans ih

theorem Steps.add {a b : Nat} (h : Steps a s t) (h' : Steps b t u) : Steps (a + b) s u := by
  induction h with
  | zero s => rwa [Nat.zero_add]
  | succ first _ ih =>
    rw [Nat.add_right_comm]
    exact .succ first (ih h')

/-- Issuing a legal command takes one step (R101). -/
theorem Steps.issue {i : Instr} (hw : i.wf = true) (moves : s.moves = issue i :: more)
    (he : exec i { s with moves := more } = .next t) : Steps 1 s t :=
  .succ ((step_issue moves (decodeOfEncodeIsTheCommand i hw)).trans he) (.zero t)

/-- The state after the host pushed these items, with these moves still to come (R10 c). -/
def State.supplied (s : State) (items : List Item) (moves : List Move) : State :=
  { s with inq := s.inq ++ items, moves := moves }

theorem supplied_supplied (s : State) (it : Item) (items : List Item) (moves moves' : List Move) :
    (s.supplied [it] moves).supplied items moves' = s.supplied (it :: items) moves' := by
  rw [State.supplied, State.supplied, State.supplied, List.append_cons s.inq it items]

/-- The line `.in` puts data bytes and EOS at the tail of INQ (R101). -/
theorem Steps.supply (bytes : List Byte) (moves : s.moves = Machine.supply bytes ++ more) :
    Steps (bytes.length + 1) s (s.supplied (bytes.map .byte ++ [.eos]) more) := by
  induction bytes generalizing s with
  | nil => exact .succ (step_of_move moves) (.zero _)
  | cons b bytes ih =>
    have next := ih (s := s.supplied [.byte b] (Machine.supply bytes ++ more)) rfl
    rw [supplied_supplied] at next
    exact .succ (step_of_move moves) next

/-! ### The tree of a source -/

/-- The state's tree is this one, with SHAPE and NSYM (R24, R26, R31). -/
structure HoldsTree (s : State) (h : Shaped) : Prop where
  holds : Holds s.nodes s.root h
  shape : s.shape = h.shape
  nsym : s.nsym = BitVec.ofNat 9 h.leafCount

/-- The tree BUILD makes of these counts, whatever else the state holds (R141). -/
structure TreeOf (freq : Vector Data 256) (h : Shaped) : Prop where
  ofBuild : OfBuild h
  leaves : (symbolsOf h).Perm (counted freq)
  built : ∀ {s : State}, s.freq = freq → HoldsTree s.built h

/-- What BUILD makes depends on FREQ only (R141). -/
theorem built_congr (e : s.freq = t.freq) : s.built.nodes = t.built.nodes ∧ s.built.root = t.built.root ∧
    s.built.shape = t.built.shape := by
  simp only [State.built, e]
  split <;> exact ⟨rfl, rfl, rfl⟩

theorem built_nsym (s : State) : s.built.nsym = BitVec.ofNat 9 (distinct s.freq) := by
  rw [← makeLeaves_length]
  simp only [State.built]
  split <;> rfl

theorem exists_treeOf (freq : Vector Data 256) : ∃ h, TreeOf freq h := by
  obtain ⟨h, ofBuild, shape, holds, leaves⟩ := built_holds { State.reset with freq := freq }
  refine ⟨h, ofBuild, leaves, fun {s} e => ?_⟩
  obtain ⟨nodes, root, shape'⟩ := built_congr (s := s) (t := { State.reset with freq := freq }) e
  exact ⟨by rwa [nodes, root], shape'.trans shape.symm, by rw [built_nsym, e, leafCount_of_counted leaves]⟩

theorem TreeOf.size_le (tree : TreeOf freq h) : h.size ≤ 511 := by
  have once := (tree.built (s := { State.reset with freq := freq }) rfl).holds
  have := built_nodes_length { State.reset with freq := freq }
  have := once.once.length_eq
  rw [length_shaped_indices once.held, length_indexRange] at this
  omega

/-! ### What the flows keep -/

/-- An idle core before a sink that takes everything, with these streams and these moves still to come. -/
structure Quiet (s : State) (pace : Nat) (inq : List Item) (outq : List Byte) (moves : List Move) : Prop where
  idle : s.phase = .idle
  answers : s.sinkAnswers = []
  sink : s.sinkThen = some .ok
  pace : s.pace = pace
  inq : s.inq = inq
  outq : s.outq = outq
  moves : s.moves = moves

/-- No error is latched, and the validity flags are these (R21). -/
structure Flags (s : State) (fv tv bv fin : Bool) : Prop where
  err : s.err = false
  fv : s.fv = fv
  tv : s.tv = tv
  bv : s.bv = bv
  fin : s.fin = fin

/-- The tables of the two states are the same. -/
structure SameTables (s t : State) : Prop where
  freq : t.freq = s.freq
  total : t.total = s.total
  nodes : t.nodes = s.nodes
  root : t.root = s.root
  nsym : t.nsym = s.nsym
  shape : t.shape = s.shape

theorem SameTables.trans (h : SameTables s t) (h' : SameTables t u) : SameTables s u :=
  ⟨h'.freq.trans h.freq, h'.total.trans h.total, h'.nodes.trans h.nodes, h'.root.trans h.root, h'.nsym.trans h.nsym,
    h'.shape.trans h.shape⟩

theorem SameTables.holdsTree (same : SameTables s t) (holds : HoldsTree s h) : HoldsTree t h :=
  ⟨by rw [same.nodes, same.root]; exact holds.holds, same.shape.trans holds.shape, same.nsym.trans holds.nsym⟩

theorem Quiet.sinkTakes {moves : List Move} (q : Quiet s pace inq outq moves) (n : Nat) : sinkTakes n s = true :=
  sinkTakes_iff.2 fun k _ => by simp [q.answers, q.sink]

theorem Quiet.supply (q : Quiet s pace inq outq (Machine.supply src ++ more)) (f : Flags s fv tv bv fin) :
    ∃ t, Steps (src.length + 1) s t ∧ Quiet t pace (inq ++ (src.map .byte ++ [.eos])) outq more ∧
      Flags t fv tv bv fin ∧ SameTables s t ∧ t.code = s.code :=
  ⟨_, .supply src q.moves, { q with inq := by rw [State.supplied, q.inq], moves := rfl }, { f with },
    ⟨rfl, rfl, rfl, rfl, rfl, rfl⟩, rfl⟩

/-- CLR starts a new operation with all counts at 0 (R245). -/
theorem Quiet.clr (q : Quiet s pace inq outq (issue .clr :: more)) :
    ∃ t, Steps 1 s t ∧ Quiet t pace inq outq more ∧ Flags t false false false false ∧
      t.freq = Vector.replicate 256 0 ∧ t.total = 0 := by
  have e : exec .clr { s with moves := more } =
      .next (({ ({ s with moves := more } : State).cleared with curop := Instr.clr.opcode } : State).respond respOk 0) := by
    rw [exec, execClr, issued_of_pass (pass_clr (s := { s with moves := more }) q.idle)]
    rfl
  exact ⟨_, .issue rfl q.moves e, { q with idle := rfl, moves := rfl }, ⟨rfl, rfl, rfl, rfl, rfl⟩, rfl, rfl⟩

/-- PROF counts the source (R120). -/
theorem Quiet.prof (q : Quiet s pace (src.map .byte ++ .eos :: rest) outq (issue .prof :: more))
    (f : Flags s false false false false) (total : s.total = 0) (room : src.length < 2 ^ 64) (fast : src.length + 1 ≤ pace) :
    ∃ t, Steps 1 s t ∧ Quiet t pace rest outq more ∧ Flags t true false false false ∧
      t.freq = tally s.freq src ∧ t.total = BitVec.ofNat 64 src.length := by
  have fast : src.length + 1 ≤ s.pace := q.pace ▸ fast
  have ready : ProfReady { s with moves := more } src (.eos :: rest) :=
    ⟨q.idle, f.err, f.fv, f.tv, q.inq, by rw [total]; simpa using room, Nat.le_of_succ_le fast⟩
  have e := ready.exec_prof_eos fast
  refine ⟨_, .issue rfl q.moves e, { q with idle := rfl, inq := rfl, moves := rfl }, { f with fv := rfl }, rfl, ?_⟩
  show s.total + _ = _
  rw [total]
  exact BitVec.zero_add _

/-- BUILD makes the tree of FREQ (R140). -/
theorem Quiet.build (q : Quiet s pace inq outq (issue .build :: more)) (f : Flags s true false false false)
    (tree : TreeOf s.freq h) :
    ∃ t, Steps 1 s t ∧ Quiet t pace inq outq more ∧ Flags t true true false false ∧
      t.freq = s.freq ∧ t.total = s.total ∧ HoldsTree t h := by
  have e := exec_build_of_ready (s := { s with moves := more }) q.idle f.err f.fv f.tv
  have holds := tree.built (s := ({ s with moves := more } : State).accept .build) rfl
  rw [built_frame] at e
  exact ⟨_, .issue rfl q.moves e, { q with moves := rfl }, { f with tv := rfl }, rfl, rfl,
    ⟨holds.holds, holds.shape, holds.nsym⟩⟩

/-- GEN writes the codes of the tree (R160). -/
theorem Quiet.gen (q : Quiet s pace inq outq (issue .gen :: more)) (f : Flags s true true false false)
    (holds : HoldsTree s h) (fits : h.size ≤ 511) :
    ∃ t, Steps 1 s t ∧ Quiet t pace inq outq more ∧ Flags t true true true false ∧ SameTables s t ∧
      t.code = codeTable h.codes := by
  obtain ⟨walked, e⟩ := exec_gen_of_held (s := { s with moves := more }) (pass_gen q.idle f.err f.tv f.bv)
    holds.holds.held (shaped_depth_le fits)
  exact ⟨_, .issue rfl q.moves e, { q with moves := rfl }, { f with bv := rfl }, ⟨rfl, rfl, rfl, rfl, rfl, rfl⟩, rfl⟩

/-- TSER writes the tree (R176). -/
theorem Quiet.tser (q : Quiet s pace inq outq (issue .tser :: more)) (f : Flags s true true true false)
    (holds : HoldsTree s h) (fits : h.size ≤ 511) (fast : 1022 ≤ pace) :
    ∃ t, Steps 1 s t ∧ Quiet t pace inq (outq ++ h.bytes) more ∧ Flags t true true true false ∧ SameTables s t ∧
      t.code = s.code := by
  have e := tserWritesTheTree { s with moves := more } h q.idle f.err f.tv holds.holds.held (q.sinkTakes _)
    ((length_shaped_bytes_le fits).trans (q.pace ▸ fast))
  exact ⟨_, .issue rfl q.moves e, { q with answers := by simp [q.answers], outq := by simp [q.outq], moves := rfl },
    { f with }, ⟨rfl, rfl, rfl, rfl, rfl, rfl⟩, rfl⟩

/-- ENC writes the packed codes of the source (R200). -/
theorem Quiet.enc (q : Quiet s pace (src.map .byte ++ .eos :: rest) outq (issue .enc :: more))
    (f : Flags s true true true false) (coded : ∀ b ∈ src, (entry s.code b).len ≠ 0)
    (fast : src.length + 1 + (packed (codeBits s.code src)).length ≤ pace) :
    ∃ t, Steps 1 s t ∧ Quiet t pace rest (outq ++ packed (codeBits s.code src)) more ∧ Flags t true true true true ∧
      SameTables s t := by
  have e := encPacksTheCodes { s with moves := more } src rest q.idle f.err f.bv f.fin q.inq coded (q.sinkTakes _)
    (q.pace ▸ fast)
  exact ⟨_, .issue rfl q.moves e,
    { q with answers := by simp [q.answers], inq := rfl, outq := by simp [q.outq], moves := rfl },
    { f with fin := rfl }, ⟨rfl, rfl, rfl, rfl, rfl, rfl⟩⟩

/-- TDES reads the tree back (R177). -/
theorem Quiet.tdes (q : Quiet s pace (h.bytes.map .byte ++ rest) outq (issue (.tdes h.shape) :: more))
    (f : Flags s false false false false) (fits : h.size ≤ 511) (fast : 1022 ≤ pace) :
    ∃ t, Steps 1 s t ∧ Quiet t pace rest outq more ∧ Flags t false true false false ∧
      h.heldAt t.nodes t.root = true := by
  have e := tdesReadsTheTree { s with moves := more } h rest q.idle f.err f.fv f.tv fits q.inq
    ((length_shaped_bytes_le fits).trans (q.pace ▸ fast))
  have legal : (Instr.tdes h.shape).wf = true := by cases h <;> rfl
  exact ⟨_, .issue legal q.moves e, { q with inq := rfl, moves := rfl }, { f with tv := rfl },
    shaped_heldAt_layout h fits⟩

/-- DEC of the packed codes of a source gives it back (R204, R209). -/
theorem Quiet.dec (q : Quiet s pace ((packed (bitsOf syms)).map .byte ++ rest) outq
      (issue (.dec (BitVec.ofNat 64 syms.length)) :: more))
    (f : Flags s fv true bv false) (held : h.heldAt s.nodes s.root = true) (codes : ∀ x ∈ syms, x ∈ h.codes)
    (few : syms.length < 2 ^ 64) (fast : syms.length + (packed (bitsOf syms)).length ≤ pace) :
    ∃ t, Steps 1 s t ∧ Quiet t pace rest (outq ++ syms.map (·.1)) more ∧ Flags t fv true bv true := by
  obtain ⟨dbyte, dbits, cur, e⟩ := decWalksTheTree { s with moves := more } h syms (packed (bitsOf syms)) rest q.idle f.err
    f.tv f.fin held codes few (take_payloadBits_packed _) (length_packed _) q.inq (q.sinkTakes _) (q.pace ▸ fast)
  exact ⟨_, .issue rfl q.moves e,
    { q with answers := by simp [q.answers], inq := rfl, outq := by simp [q.outq], moves := rfl },
    { f with fin := rfl }⟩

/-- A read leaves everything but the response channel as it is (R246). -/
theorem Quiet.read {i : Instr} (hi : isRead i = true) (hw : i.wf = true) (q : Quiet s pace inq outq (issue i :: more))
    (f : Flags s fv tv bv fin) :
    ∃ t, Steps 1 s t ∧ Quiet t pace inq outq more ∧ Flags t fv tv bv fin ∧ SameTables s t := by
  obtain ⟨resp, v, e⟩ := exec_read hi { s with moves := more }
  exact ⟨_, .issue hw q.moves e, { q with moves := rfl }, { f with }, ⟨rfl, rfl, rfl, rfl, rfl, rfl⟩⟩

end Sys2Proof.Machine

/-! SUPPORT. The flows of 30_encoding.md R102: COMPRESS, the three ways back of 45_bitstream.md R209, and the statement about
them. -/

namespace Sys2Proof.Machine

open Sys2Proof.Safety

variable {s : State} {more : List Move} {pace : Nat} {inq : List Item} {outq src : List Byte} {h : Shaped}
  {freq : Vector Data 256} {code : Vector Code 256} {b : Byte}

/-! ### The codes of a source -/

/-- The symbols of a source with their codes. -/
def symsOf (code : Vector Code 256) (src : List Byte) : List (Byte × List Bool) := src.map fun b => (b, (entry code b).path)

theorem bitsOf_symsOf (code : Vector Code 256) (src : List Byte) : bitsOf (symsOf code src) = codeBits code src :=
  List.flatMap_map ..

theorem map_fst_symsOf (code : Vector Code 256) (src : List Byte) : (symsOf code src).map (·.1) = src := by
  simp [symsOf, Function.comp_def]

@[simp] theorem length_symsOf (code : Vector Code 256) (src : List Byte) : (symsOf code src).length = src.length :=
  List.length_map ..

/-- A counted symbol has a code, and it is a code of the tree (R33 a). -/
theorem TreeOf.code_of_counted (tree : TreeOf freq h) (hb : entry freq b ≠ 0) :
    (b, (entry (codeTable h.codes) b).path) ∈ h.codes ∧ (entry (codeTable h.codes) b).len ≠ 0 := by
  obtain ⟨x, hx, rfl⟩ := exists_code_of_counted tree.leaves hb
  rw [(code_of_mem tree.leaves tree.ofBuild hx).2]
  exact ⟨hx, len_ne_zero_of_mem tree.leaves tree.ofBuild hx⟩

/-- A code has at most 255 bits, so a symbol takes less than 32 bytes of the payload (R32). -/
theorem length_packed_codeBits_le (code : Vector Code 256) (src : List Byte) :
    (packed (codeBits code src)).length ≤ 32 * src.length := by
  have bits : (codeBits code src).length ≤ 255 * src.length := by
    induction src with
    | nil => exact Nat.zero_le _
    | cons b src ih =>
      have := (entry code b).len.isLt
      have path : ((entry code b).path).length = (entry code b).len.toNat := by simp [Code.path]
      rw [codeBits, List.flatMap_cons, List.length_append, ← codeBits, List.length_cons]
      omega
  rw [length_packed]
  omega

/-! ### The counts of a source -/

/-- The counts PROF makes of a source after CLR (R120). -/
def countsOf (src : List Byte) : Vector Data 256 := tally (Vector.replicate 256 0) src

theorem entry_countsOf_ne_zero (few : src.length < 2 ^ 64) (hb : b ∈ src) : entry (countsOf src) b ≠ 0 := by
  have pos := List.count_pos_iff.2 hb
  have le := List.count_le_length (l := src) (a := b)
  intro e
  have := congrArg BitVec.toNat e
  rw [countsOf, entry_tally, entry_replicate, show (0 : Data) + BitVec.ofNat 64 (src.count b) = _ from BitVec.zero_add _,
    BitVec.toNat_ofNat, Nat.mod_eq_of_lt (by omega)] at this
  exact absurd this pos.ne'

/-- The counts add up to the length of the source (R27). -/
theorem freqSum_countsOf (few : src.length < 2 ^ 64) : freqSum (countsOf src) = src.length := by
  induction src using List.reverseRecOn with
  | nil => rw [countsOf, tally_nil]; exact freqSum_zero
  | append_singleton src b ih =>
    rw [List.length_append, List.length_singleton] at few ⊢
    have before := ih (by omega)
    have le := before ▸ entry_le_freqSum (countsOf src) b
    have next : (entry (countsOf src) b + 1).toNat = (entry (countsOf src) b).toNat + 1 := by
      rw [BitVec.toNat_add]
      exact Nat.mod_eq_of_lt (by show _ + 1 < _; omega)
    rw [countsOf, ← setEntry_tally, ← countsOf, freqSum_setEntry, next, before]
    omega

/-! ### COMPRESS -/

theorem Steps.cast {a b : Nat} {s t : State} (h : Steps a s t) (e : a = b) : Steps b s t := e ▸ h

/-- CLR, PROF and BUILD: the tree of the source (R209, R232). -/
theorem Quiet.clrProfBuild
    (q : Quiet s pace [] outq (issue .clr :: (Machine.supply src ++ issue .prof :: issue .build :: more)))
    (tree : TreeOf (countsOf src) h) (few : src.length < 2 ^ 64) (fast : src.length + 1 ≤ pace) :
    ∃ t, Steps (src.length + 4) s t ∧ Quiet t pace [] outq more ∧ Flags t true true false false ∧
      t.freq = countsOf src ∧ t.total = BitVec.ofNat 64 src.length ∧ HoldsTree t h := by
  obtain ⟨t₁, steps₁, q, f, freq₁, total₁⟩ := q.clr
  obtain ⟨t₂, steps₂, q, f, same₂, -⟩ := q.supply f
  obtain ⟨t₃, steps₃, q, f, freq₃, total₃⟩ := q.prof f (same₂.total.trans total₁) few fast
  have counts : t₃.freq = countsOf src := by rw [freq₃, same₂.freq, freq₁]; rfl
  obtain ⟨t, steps₄, q, f, freq₄, total₄, holds⟩ := q.build f (counts ▸ tree)
  exact ⟨t, (steps₁.add (steps₂.add (steps₃.add steps₄))).cast (by omega), q, f, freq₄.trans counts, total₄.trans total₃,
    holds⟩

theorem compress_eq (src : List Byte) : compress src =
    issue .clr :: (supply src ++ issue .prof :: issue .build :: issue .gen :: issue .tser ::
      (supply src ++ [issue .enc, issue (.rdr 0), issue (.rdr 1)])) := by
  simp [compress]

theorem length_supply (bytes : List Byte) : (supply bytes).length = bytes.length + 1 := by simp [supply]

/-- COMPRESS writes the tree and the payload (R102, R232). -/
theorem Quiet.compress (q : Quiet s pace [] [] (compress src)) (tree : TreeOf (countsOf src) h)
    (few : src.length < 2 ^ 64) (fast : 64 * src.length + 2048 ≤ pace) :
    ∃ t, Steps (Machine.compress src).length s t ∧
      Quiet t pace [] (h.bytes ++ packed (codeBits (codeTable h.codes) src)) [] ∧ Flags t true true true true ∧
      t.freq = countsOf src ∧ t.total = BitVec.ofNat 64 src.length ∧ HoldsTree t h := by
  have size := length_packed_codeBits_le (codeTable h.codes) src
  rw [compress_eq] at q ⊢
  obtain ⟨t₁, steps₁, q, f, freq₁, total₁, holds₁⟩ := q.clrProfBuild tree few (by omega)
  obtain ⟨t₂, steps₂, q, f, same₂, code₂⟩ := q.gen f holds₁ tree.size_le
  have holds₂ := same₂.holdsTree holds₁
  obtain ⟨t₃, steps₃, q, f, same₃, code₃⟩ := q.tser f holds₂ tree.size_le (by omega)
  obtain ⟨t₄, steps₄, q, f, same₄, code₄⟩ := q.supply f
  have code : t₄.code = codeTable h.codes := code₄.trans (code₃.trans code₂)
  obtain ⟨t₅, steps₅, q, f, same₅⟩ := q.enc f
    (fun b hb => code ▸ (tree.code_of_counted (entry_countsOf_ne_zero few hb)).2) (by rw [code]; omega)
  obtain ⟨t₆, steps₆, q, f, same₆⟩ := q.read rfl rfl f
  obtain ⟨t, steps₇, q, f, same₇⟩ := q.read rfl rfl f
  have same := same₂.trans (same₃.trans (same₄.trans (same₅.trans (same₆.trans same₇))))
  refine ⟨t, ?_, code ▸ q, f, same.freq.trans freq₁, same.total.trans total₁, same.holdsTree holds₁⟩
  refine (steps₁.add (steps₂.add (steps₃.add (steps₄.add (steps₅.add (steps₆.add steps₇)))))).cast ?_
  simp only [List.length_cons, List.length_append, length_supply, List.length_nil]
  omega

/-! ### Loading the stored frequencies -/

/-- The counts of `done` are loaded, the others are 0, TOTAL is their sum (R121). -/
structure Loading (s : State) (freq : Vector Data 256) (done : List Byte) : Prop where
  entries : ∀ b, entry s.freq b = if b ∈ done then entry freq b else 0
  total : s.total.toNat = freqSum s.freq

/-- What is loaded so far weighs no more than all counts. -/
theorem freqSum_le {part : Vector Data 256} (h : ∀ b, (entry part b).toNat ≤ (entry freq b).toNat) :
    freqSum part ≤ freqSum freq :=
  List.sum_le_sum fun b _ => h b

theorem Loading.room {done : List Byte} (loading : Loading s freq done) (small : freqSum freq < 2 ^ 64) (b : Byte) :
    s.total.toNat - (entry s.freq b).toNat + (entry freq b).toNat < 2 ^ 64 := by
  have le : freqSum (setEntry s.freq b (entry freq b)) ≤ freqSum freq := freqSum_le fun a => by
    rw [entry_setEntry, loading.entries a]
    split_ifs with e
    · rw [e]
    · exact le_rfl
    · exact Nat.zero_le _
  rw [freqSum_setEntry, ← loading.total] at le
  omega

/-- LDF loads one count (R121). -/
theorem Quiet.ldf {done : List Byte} {fv : Bool}
    (q : Quiet s pace inq outq (issue (.ldf (b.setWidth 16) (entry freq b)) :: more)) (f : Flags s fv false false false)
    (loading : Loading s freq done) (small : freqSum freq < 2 ^ 64) :
    ∃ t, Steps 1 s t ∧ Quiet t pace inq outq more ∧ Flags t true false false false ∧ Loading t freq (done ++ [b]) := by
  have room := loading.room small b
  have sum := freqSum_setEntry s.freq b (entry freq b)
  have e := ((ldfReplacesOneCount { s with moves := more } (entry freq b) q.idle).1 b f.err f.tv
    (loading.total ▸ entry_le_freqSum s.freq b) room)
  refine ⟨_, .issue rfl q.moves e, { q with moves := rfl }, { f with fv := rfl }, fun a => ?_, ?_⟩
  · show entry (setEntry s.freq b (entry freq b)) a = _
    rw [entry_setEntry, loading.entries a]
    by_cases h : a = b <;> simp [h]
  · show (BitVec.ofNat 64 _).toNat = freqSum (setEntry s.freq b (entry freq b))
    rw [sum, ← loading.total, BitVec.toNat_ofNat, Nat.mod_eq_of_lt room]

/-- A list of LDFs loads its symbols' counts, and sets FV unless it is empty (R121). -/
theorem Quiet.ldfs (todo : List Byte) {done : List Byte} {fv : Bool}
    (q : Quiet s pace inq outq ((todo.map fun b => issue (.ldf (b.setWidth 16) (entry freq b))) ++ more))
    (f : Flags s fv false false false) (loading : Loading s freq done) (small : freqSum freq < 2 ^ 64) :
    ∃ t, Steps todo.length s t ∧ Quiet t pace inq outq more ∧ Flags t (fv || !todo.isEmpty) false false false ∧
      Loading t freq (done ++ todo) := by
  induction todo generalizing s done fv with
  | nil => exact ⟨s, .zero s, q, by simpa using f, by rwa [List.append_nil]⟩
  | cons b todo ih =>
    obtain ⟨t₁, steps₁, q, f, loading⟩ := q.ldf f loading small
    obtain ⟨t, steps, q, f, loading⟩ := ih q f loading
    rw [← List.append_cons] at loading
    exact ⟨t, (steps₁.add steps).cast (Nat.add_comm ..), q, by simpa using f, loading⟩

/-- LDF of all 256 symbols makes the table of the stored counts (R102). -/
theorem Quiet.ldfAll (q : Quiet s pace inq outq
      ((symbols.map fun b => issue (.ldf (b.setWidth 16) (entry freq b))) ++ more))
    (f : Flags s false false false false) (zero : s.freq = Vector.replicate 256 0) (total : s.total = 0)
    (small : freqSum freq < 2 ^ 64) :
    ∃ t, Steps 256 s t ∧ Quiet t pace inq outq more ∧ Flags t true false false false ∧ t.freq = freq := by
  have start : Loading s freq [] := ⟨fun b => by simp [zero], by rw [total, zero, freqSum_zero]; rfl⟩
  obtain ⟨t, steps, q, f, loading⟩ := q.ldfs symbols f start small
  exact ⟨t, steps.cast length_symbols, q, f, table_ext fun b => by simp [loading.entries b]⟩

/-! ### The three ways back (R209) -/

/-- The script gives the source back, with no error. -/
def GivesBack (script : List Move) (s : State) (src : List Byte) : Prop :=
  ∃ u, Steps script.length s u ∧ u.err = false ∧ u.fin = true ∧ u.outq = src

section WaysBack
variable (tree : TreeOf (countsOf src) h) (few : src.length < 2 ^ 64) (fast : 64 * src.length + 2048 ≤ pace)
include tree few fast

/-- DEC gives the source back from its payload, under a table that holds its tree (R204). -/
theorem Quiet.decSource {rest : List Item} {fv bv : Bool}
    (q : Quiet s pace ((packed (codeBits (codeTable h.codes) src)).map .byte ++ rest) []
      [issue (.dec (BitVec.ofNat 64 src.length))])
    (f : Flags s fv true bv false) (held : h.heldAt s.nodes s.root = true) :
    ∃ u, Steps 1 s u ∧ u.err = false ∧ u.fin = true ∧ u.outq = src := by
  have size := length_packed_codeBits_le (codeTable h.codes) src
  rw [← bitsOf_symsOf] at q size
  rw [← length_symsOf (codeTable h.codes) src] at q
  have codes : ∀ x ∈ symsOf (codeTable h.codes) src, x ∈ h.codes := fun x hx => by
    obtain ⟨b, hb, rfl⟩ := List.mem_map.1 hx
    exact (tree.code_of_counted (entry_countsOf_ne_zero few hb)).1
  obtain ⟨u, steps, q, f⟩ := q.dec f held codes (by rwa [length_symsOf]) (by rw [length_symsOf]; omega)
  exact ⟨u, steps, f.err, f.fin, by rw [q.outq, map_fst_symsOf, List.nil_append]⟩

/-- DECOMPRESS, from all that COMPRESS wrote (R102, R233). -/
theorem Quiet.decompress {fv tv bv fin : Bool}
    (q : Quiet s pace [] [] (Machine.decompress h.shape (BitVec.ofNat 64 src.length)
      (h.bytes ++ packed (codeBits (codeTable h.codes) src))))
    (f : Flags s fv tv bv fin) :
    GivesBack (Machine.decompress h.shape (BitVec.ofNat 64 src.length)
      (h.bytes ++ packed (codeBits (codeTable h.codes) src))) s src := by
  obtain ⟨t₁, steps₁, q, -⟩ := q.supply f
  obtain ⟨t₂, steps₂, q, f, -⟩ := q.clr
  rw [List.nil_append, List.map_append, List.append_assoc] at q
  obtain ⟨t₃, steps₃, q, f, held⟩ := q.tdes f tree.size_le (by omega)
  obtain ⟨u, steps₄, ends⟩ := q.decSource tree few fast f held
  refine ⟨u, (steps₁.add (steps₂.add (steps₃.add steps₄))).cast ?_, ends⟩
  simp [Machine.decompress, length_supply]

/-- DEC directly after a BUILD from the source (R209). -/
theorem Quiet.decodeAfterBuild
    (q : Quiet s pace [] [] (Machine.decodeAfterBuild src (BitVec.ofNat 64 src.length)
      (packed (codeBits (codeTable h.codes) src)))) :
    GivesBack (Machine.decodeAfterBuild src (BitVec.ofNat 64 src.length) (packed (codeBits (codeTable h.codes) src))) s
      src := by
  simp only [Machine.decodeAfterBuild, List.cons_append, List.append_assoc, List.nil_append] at q
  obtain ⟨t₁, steps₁, q, f, -, -, holds⟩ := q.clrProfBuild tree few (by omega)
  obtain ⟨t₂, steps₂, q, f, same, -⟩ := q.supply f
  obtain ⟨u, steps₃, ends⟩ := q.decSource tree few fast f (same.holdsTree holds).holds.held
  refine ⟨u, (steps₁.add (steps₂.add steps₃)).cast ?_, ends⟩
  simp only [Machine.decodeAfterBuild, List.length_cons, List.length_append, length_supply, List.length_nil]
  omega

/-- DECOMPRESS_F, from the stored frequencies (R102). -/
theorem Quiet.decompressF
    (q : Quiet s pace [] [] (Machine.decompressF (countsOf src) (BitVec.ofNat 64 src.length)
      (packed (codeBits (codeTable h.codes) src)))) :
    GivesBack (Machine.decompressF (countsOf src) (BitVec.ofNat 64 src.length)
      (packed (codeBits (codeTable h.codes) src))) s src := by
  simp only [Machine.decompressF, List.cons_append, List.append_assoc, List.nil_append] at q
  obtain ⟨t₁, steps₁, q, f, zero, total⟩ := q.clr
  obtain ⟨t₂, steps₂, q, f, counts⟩ := q.ldfAll f zero total (by rwa [freqSum_countsOf few])
  obtain ⟨t₃, steps₃, q, f, -, -, holds⟩ := q.build f (counts ▸ tree)
  obtain ⟨t₄, steps₄, q, f, same₄⟩ := q.read rfl rfl f
  obtain ⟨t₅, steps₅, q, f, same₅, -⟩ := q.supply f
  obtain ⟨u, steps₆, ends⟩ := q.decSource tree few fast f ((same₄.trans same₅).holdsTree holds).holds.held
  refine ⟨u, (steps₁.add (steps₂.add (steps₃.add (steps₄.add (steps₅.add steps₆))))).cast ?_, ends⟩
  simp only [Machine.decompressF, List.length_cons, List.length_append, List.length_map, length_symbols, length_supply,
    List.length_nil]
  omega

end WaysBack

/-- The serialized tree has a byte for every node and one more for every leaf (R175), and the leaves are at most half of the
nodes and the absent one. -/
theorem length_shaped_bytes (h : Shaped) : h.bytes.length = h.size + h.leafCount ∧ 2 * h.leafCount ≤ h.size + 1 := by
  cases h with
  | empty => exact ⟨rfl, Nat.zero_le 1⟩
  | lone t =>
    have := size_add_one t
    rw [Shaped.bytes, List.length_cons, length_bytes, Shaped.size, Shaped.leafCount]
    omega
  | full t =>
    have := size_add_one t
    rw [Shaped.bytes, length_bytes, Shaped.size, Shaped.leafCount]
    omega

/-- NNODES and NSYM say where the payload begins (R175, R209). -/
theorem HoldsTree.length_bytes {t : State} (holds : HoldsTree t h) (fits : h.size ≤ 511) :
    h.bytes.length = t.nodes.length + t.nsym.toNat := by
  obtain ⟨bytes, leaves⟩ := length_shaped_bytes h
  have nodes := holds.holds.once.length_eq
  rw [length_shaped_indices holds.holds.held, length_indexRange] at nodes
  rw [bytes, nodes, holds.nsym, toNat_ofNat_index (by omega)]

/-- Settles O47: COMPRESS writes the tree of the source and its payload (`Quiet.compress`), and each way back decodes the
payload under a table that holds the same tree (`Quiet.decSource`). -/
theorem decodeOfEncodeIsTheSource : Obligations.DecodeOfEncodeIsTheSource := by
  intro s src hp hq ho ha hs few fast
  obtain ⟨h, tree⟩ := exists_treeOf (countsOf src)
  obtain ⟨t, steps, q, f, freq, total, holds⟩ :=
    Quiet.compress (s := { s with moves := compress src }) ⟨hp, ha, hs, rfl, hq, ho, rfl⟩ tree few fast
  refine ⟨t, steps.run, f.err, f.fin, total, q.inq, fun script hscript => ?_⟩
  have payload : t.outq.drop (t.nodes.length + t.nsym.toNat) = packed (codeBits (codeTable h.codes) src) := by
    rw [q.outq, ← holds.length_bytes tree.size_le, List.drop_left]
  rw [payload, holds.shape, total, freq, q.outq] at hscript
  have quiet : Quiet { t with outq := [], moves := script } s.pace [] [] script := { q with outq := rfl, moves := rfl }
  obtain ⟨u, steps, ends⟩ : GivesBack script { t with outq := [], moves := script } src := by
    simp only [List.mem_cons, List.not_mem_nil, or_false] at hscript
    rcases hscript with rfl | rfl | rfl
    · exact quiet.decompress tree few fast { f with }
    · exact quiet.decodeAfterBuild tree few fast
    · exact quiet.decompressF tree few fast
  exact ⟨u, steps.run, ends⟩

end Sys2Proof.Machine

/-! SUPPORT. The system commands (47_system.md R245 to R249): an equation for each accepted one, the layouts that the reads
return, and the statements about them. -/

namespace Sys2Proof.Machine

variable {s : State} {i : Instr}

/-! ### The checks of a read (R96) -/

theorem seqOk_of_isRead (hi : isRead i = true) : seqOk i s = true := by
  cases i with
  | rdr _ | rdf _ | rdn _ _ | rdc _ _ => rfl
  | _ => cases hi

theorem pass_read (hi : isRead i = true) (hw : i.wf = true) (hp : s.phase = .idle ∨ mayOverlap i = true)
    (hr : rangeOk i s = true) : checks i s = none :=
  checks_eq_none.2 ⟨hw, hp.imp_left busy_of_idle, seqOk_of_isRead hi, hr⟩

theorem exec_read_of_range_fail (hi : isRead i = true) (hw : i.wf = true) (hp : s.phase = .idle)
    (hr : rangeOk i s = false) : exec i s = .next (s.respond rejRange 0) :=
  exec_of_range_fail hw hp (seqOk_of_isRead hi) (by simp [hr])

theorem rdr_mem_overlapping {reg : Idx} :
    Instr.rdr reg ∈ [.rdr 0, .rdr 3, .rdr 4, .rdr 5] ↔ reg.toNat ∈ [0, 3, 4, 5] := by
  simp [← BitVec.toNat_inj]

theorem mayOverlap_rdr {reg : Idx} : mayOverlap (.rdr reg) = true ↔ reg.toNat ∈ [0, 3, 4, 5] := by
  rw [← rdr_mem_overlapping]
  simp [mayOverlap, or_assoc]

/-- An index operand that a symbol was widened to is in range (R95). -/
theorem toNat_setWidth_symbol_le (b : Byte) : (b.setWidth 16 : Idx).toNat ≤ 255 :=
  toNat_setWidth_symbol b ▸ Nat.le_of_lt_succ b.isLt

/-! ### The accepted commands -/

theorem exec_clr_of_idle (hp : s.phase = .idle) :
    exec .clr s = .next (({ s.cleared with curop := 0x01 } : State).respond respOk 0) := by
  rw [exec, execClr, issued_of_pass (pass_clr hp)]
  rfl

theorem exec_rdr_of_pass {reg : Idx} (hp : s.phase = .idle ∨ reg.toNat ∈ [0, 3, 4, 5]) (hreg : reg.toNat ≤ 8) :
    exec (.rdr reg) s = .next (s.respond respOk (s.register reg)) :=
  issued_of_pass (pass_read rfl rfl (hp.imp_right mayOverlap_rdr.2) (decide_eq_true hreg))

theorem exec_rdf_of_pass (hp : s.phase = .idle) (b : Byte) :
    exec (.rdf (b.setWidth 16)) s = .next (s.respond respOk (entry s.freq b)) := by
  have hc : checks (.rdf (b.setWidth 16)) s = none :=
    pass_read rfl rfl (.inl hp) (decide_eq_true (toNat_setWidth_symbol_le b))
  rw [exec, execRdf, issued_of_pass hc, symbolOf_setWidth]
  rfl

theorem exec_rdn_of_pass {sel : Byte} {idx : Idx} {n : Node} (hp : s.phase = .idle) (hsel : sel.toNat < 2)
    (hn : s.nodes[idx.toNat]? = some n) : exec (.rdn sel idx) s = .next (s.respond respOk (n.selected sel)) := by
  obtain ⟨defined, -⟩ := List.getElem?_eq_some_iff.1 hn
  have hc : checks (.rdn sel idx) s = none :=
    pass_read rfl (decide_eq_true hsel) (.inl hp) (decide_eq_true defined)
  rw [exec, execRdn, issued_of_pass hc, State.accept_nodes, hn]
  rfl

theorem exec_rdc_of_pass {sel : Byte} (hp : s.phase = .idle) (hsel : sel.toNat < 5) (b : Byte) :
    exec (.rdc sel (b.setWidth 16)) s = .next (s.respond respOk ((entry s.code b).selected sel)) := by
  have hc : checks (.rdc sel (b.setWidth 16)) s = none :=
    pass_read rfl (decide_eq_true hsel) (.inl hp) (decide_eq_true (toNat_setWidth_symbol_le b))
  rw [exec, execRdc, issued_of_pass hc, symbolOf_setWidth]
  rfl

/-! ### What the reads return -/

/-- The registers by number (R26), as one table. -/
def State.registers (s : State) : List (Nat × Data) :=
  [(0, s.status), (1, s.total), (2, s.expected), (3, s.decoded), (4, s.incnt), (5, s.outcnt),
    (6, BitVec.ofNat 64 s.root.toNat), (7, BitVec.ofNat 64 s.nodes.length), (8, BitVec.ofNat 64 s.nsym.toNat)]

theorem register_of_mem_registers {reg : Idx} {v : Data} (h : (reg.toNat, v) ∈ s.registers) :
    reg.toNat ≤ 8 ∧ s.register reg = v := by
  simp only [State.registers, List.mem_cons, List.not_mem_nil, or_false, Prod.mk.injEq] at h
  rcases h with ⟨n, rfl⟩ | ⟨n, rfl⟩ | ⟨n, rfl⟩ | ⟨n, rfl⟩ | ⟨n, rfl⟩ | ⟨n, rfl⟩ | ⟨n, rfl⟩ | ⟨n, rfl⟩ | ⟨n, rfl⟩ <;>
    simp [State.register, State.nnodes, n]

theorem toNat_append_eq_add {m n : Nat} (x : BitVec m) (y : BitVec n) :
    (x ++ y).toNat = x.toNat * 2 ^ n + y.toNat := by
  rw [BitVec.toNat_append, ← Nat.shiftLeft_add_eq_or_of_lt y.isLt, Nat.shiftLeft_eq]

/-- The layout of the descriptor as a sum (R248). -/
theorem descriptor_eq (n : Node) : n.descriptor =
    BitVec.ofNat 64 (n.kind.toNat + n.sym.toNat * 2 ^ 8 + n.left.toNat * 2 ^ 16 + n.right.toNat * 2 ^ 32) := by
  apply BitVec.eq_of_toNat_eq
  simp only [Node.descriptor, toNat_append_eq_add, BitVec.toNat_ofNat]
  omega

theorem descriptor_leaf (sym : Byte) (w : Data) : (Node.leaf sym w).descriptor =
    BitVec.ofNat 64 (sym.toNat * 2 ^ 8 + 511 * 2 ^ 16 + 511 * 2 ^ 32) := by
  rw [descriptor_eq]
  simp [Node.kind, Node.sym, Node.left, Node.right]

theorem descriptor_internal (w : Data) (l r : NodeIdx) : (Node.internal w l r).descriptor =
    BitVec.ofNat 64 (1 + l.toNat * 2 ^ 16 + r.toNat * 2 ^ 32) := by
  rw [descriptor_eq]
  simp [Node.kind, Node.sym, Node.left, Node.right]

/-- The SEL operand that selects word k (R249). -/
theorem toNat_wordSel {k : Nat} (hk : k < 4) : (BitVec.ofNat 8 (k + 1)).toNat = k + 1 :=
  Nat.mod_eq_of_lt (by omega)

theorem selected_word (c : Code) {k : Nat} (hk : k < 4) : c.selected (BitVec.ofNat 8 (k + 1)) = c.word k := by
  rw [Code.selected, toNat_wordSel hk]

/-- Bit j of the code is bit 63 - (j mod 64) of word j / 64 (R65). -/
theorem word_getLsbD (c : Code) {k j : Nat} (hk : k < 4) (hj : j < 64) :
    (c.word k).getLsbD (63 - j) = c.bits.getLsbD (255 - (64 * k + j)) := by
  have inWord : 63 - j < 64 := by omega
  have place : 192 - 64 * k + (63 - j) = 255 - (64 * k + j) := by omega
  rw [Code.word, BitVec.getLsbD_extractLsb', decide_eq_true inWord, Bool.true_and, place]

/-! ### The statements -/

/-- Settles O12: CLR passes its checks whenever no command runs, and what it leaves is `State.cleared` with its own opcode. -/
theorem clrStartsANewOperation : Obligations.ClrStartsANewOperation :=
  fun _ hp => ⟨0, 0, exec_clr_of_idle hp⟩

/-- Settles O16: an accepted RDR reads the table of registers; the other clauses are its range check and the busy check. -/
theorem rdrReturnsTheRegister : Obligations.RdrReturnsTheRegister := by
  intro s reg
  refine ⟨fun v hv hp => ?register, fun hp hreg => ?noRegister, fun hp hreg => ?busy⟩
  case register =>
    obtain ⟨inTable, rfl⟩ := register_of_mem_registers hv
    exact exec_rdr_of_pass hp inTable
  case noRegister => exact exec_read_of_range_fail rfl rfl hp (decide_eq_false (Nat.not_le.2 hreg))
  case busy => exact busyRejectsAllButFourReads s (.rdr reg) rfl hp (mt rdr_mem_overlapping.1 hreg)

/-- Settles O17: the accepted RDF, its range check and the busy check. -/
theorem rdfReturnsTheCount : Obligations.RdfReturnsTheCount := by
  intro s
  refine ⟨fun hp b => ?count, fun hp sym hsym => ?noSymbol, fun hp sym => ?busy⟩
  case count => exact exec_rdf_of_pass hp b
  case noSymbol => exact exec_read_of_range_fail rfl rfl hp (decide_eq_false (Nat.not_le.2 hsym))
  case busy => exact busyRejectsAllButFourReads s (.rdf sym) rfl hp (by simp)

/-- Settles O18: the accepted RDN of each kind of node, with the sum its descriptor is; its range check and the busy check. -/
theorem rdnReturnsTheNode : Obligations.RdnReturnsTheNode := by
  intro s idx
  refine ⟨fun hp sym w hn => ?leaf, fun hp w l r hn => ?internal, fun hp hidx sel hsel => ?undefined,
    fun hp sel hsel => ?busy⟩
  case leaf =>
    rw [← descriptor_leaf sym w]
    exact ⟨exec_rdn_of_pass hp (by decide) hn, exec_rdn_of_pass hp (by decide) hn⟩
  case internal =>
    rw [← descriptor_internal w l r]
    exact ⟨exec_rdn_of_pass hp (by decide) hn, exec_rdn_of_pass hp (by decide) hn⟩
  case undefined =>
    exact exec_read_of_range_fail rfl (decide_eq_true hsel) hp (decide_eq_false (Nat.not_lt.2 hidx))
  case busy => exact busyRejectsAllButFourReads s (.rdn sel idx) (decide_eq_true hsel) hp (by simp)

/-- Settles O19: the accepted RDC of the length and of each word, whose bits are those of the code; its range check and the
busy check. -/
theorem rdcReturnsTheCode : Obligations.RdcReturnsTheCode := by
  intro s
  refine ⟨fun hp b => ⟨?length, fun k hk => ⟨(entry s.code b).word k, fun j hj => ?bits, ?word⟩⟩,
    fun hp sel sym hsel hsym => ?noSymbol, fun hp sel sym hsel => ?busy⟩
  case length =>
    rw [BitVec.ofNat_toNat]
    exact exec_rdc_of_pass hp (by decide) b
  case bits => exact word_getLsbD _ hk hj
  case word =>
    have hsel : (BitVec.ofNat 8 (k + 1)).toNat < 5 := by
      rw [toNat_wordSel hk]
      exact Nat.succ_lt_succ hk
    rw [exec_rdc_of_pass hp hsel b, selected_word _ hk]
    rfl
  case noSymbol =>
    exact exec_read_of_range_fail rfl (decide_eq_true hsel) hp (decide_eq_false (Nat.not_le.2 hsym))
  case busy => exact busyRejectsAllButFourReads s (.rdc sel sym) (decide_eq_true hsel) hp (by simp)

end Sys2Proof.Machine

/-! SUPPORT. Errors (60_exceptions.md): what the error state rejects (R276), the overflow of TOTAL (R271), and what latching
an error leaves as it was (R275). -/

namespace Sys2Proof.Machine

open Sys2Proof.Safety

variable {s t u : State}

/-! ### The error state -/

/-- Settles O11: with an error latched the sequence check lets CLR and the reads pass only (`isRead_of_seqOk_err`). -/
theorem errorStateRejects : Obligations.ErrorStateRejects := by
  intro s i hw hp he hclr hrdr hrdf hrdn hrdc
  refine exec_of_seq_fail hw hp fun hs => ?_
  have hread : isRead i = true := isRead_of_seqOk_err he hs hclr
  cases i with
  | rdr reg => exact hrdr reg rfl
  | rdf sym => exact hrdf sym rfl
  | rdn sel idx => exact hrdn sel idx rfl
  | rdc sel sym => exact hrdc sel sym rfl
  | _ => cases hread

/-! ### The overflow of TOTAL -/

/-- With TOTAL at 2^64 - 1 the next byte is popped and not counted (R120, R271). -/
theorem micro_profiling_overflow {src : List Byte} {b : Byte} {rest : List Item}
    (full : s.total + BitVec.ofNat 64 src.length = BitVec.allOnes 64) :
    micro (s.profiling src (.byte b :: rest)) =
      .next ({ s.profiling src rest with incnt := BitVec.ofNat 64 (src.length + 1) }.raise .overflow) := by
  rw [micro_profPop rfl, profMicro, inPop_byte rfl, BitVec.ofNat_add]
  exact if_pos full

/-- Settles O24: the bytes before it are counted (`ProfReady.exec_prof`), and the last one finds TOTAL full. -/
theorem profStopsBeforeTotalOverflows : Obligations.ProfStopsBeforeTotalOverflows := by
  intro s src b rest hp he hf ht hq room hpace
  have full : s.total + BitVec.ofNat 64 src.length = BitVec.allOnes 64 := by
    apply BitVec.eq_of_toNat_eq
    rw [BitVec.toNat_add, BitVec.toNat_ofNat, BitVec.toNat_allOnes]
    omega
  have ready : ProfReady s src (.byte b :: rest) := ⟨hp, he, hf, ht, hq, by omega, Nat.le_of_succ_le hpace⟩
  rw [ready.exec_prof_of_ends hpace (micro_profiling_overflow full) rfl, ← full]
  show Host.Outcome.next { ({ s.profiling src rest with incnt := BitVec.ofNat 64 (src.length + 1) } : State).raise .overflow
    with phase := .idle } = _
  rw [← hp]
  rfl

/-! ### Latching an error: the running command -/

/-- Between the two states no response was given, and the flags, SHAPE and ERR did not change; nor did CUROP, if a command ran
in the first state already (R275). -/
structure Calm (s u : State) : Prop where
  err : u.err = s.err
  rsps : u.rsps = s.rsps
  fv : u.fv = s.fv
  tv : u.tv = s.tv
  bv : u.bv = s.bv
  fin : u.fin = s.fin
  shape : u.shape = s.shape
  curop : s.phase ≠ .idle → u.curop = s.curop

theorem Calm.refl (s : State) : Calm s s := ⟨rfl, rfl, rfl, rfl, rfl, rfl, rfl, fun _ => rfl⟩

/-- Only an idle core accepts a command that sets CUROP. -/
theorem Calm.accept (h : Calm s u) (hp : s.phase = .idle) (i : Instr) : Calm s (u.accept i) :=
  { h with curop := fun running => (running hp).elim }

/-- Where micro-steps lead a command: it goes on, it has ended without an error, or it has just raised one. -/
inductive Turn (s : State) : State → Prop
  | goesOn {u : State} (calm : Calm s u) : Turn s u
  | ends {u : State} (idle : u.phase = .idle) (err : u.err = s.err) : Turn s u
  | raises {u : State} {e : Err} (calm : Calm s u) : Turn s (u.raise e)

theorem Turn.sat_inPop (h : Calm s u) {k : Option Byte → State → Result}
    (goes : ∀ item v, Calm s v → Sat True (Turn s) (k item v)) : Sat True (Turn s) (inPop u k) :=
  Machine.sat_inPop (.goesOn h) (fun _ _ => goes _ _ { h with }) (fun _ => goes _ _ { h with })
    fun _ => .raises { h with }

theorem Turn.sat_getByte (h : Calm s u) {k : Byte → State → Result}
    (goes : ∀ b v, Calm s v → Sat True (Turn s) (k b v)) : Sat True (Turn s) (getByte u k) :=
  sat_inPop h fun item v hv => by
    cases item with
    | none => exact .raises hv
    | some b => exact goes b v hv

theorem Turn.sat_outPush (h : Calm s u) {b : Byte} {k : State → Result}
    (goes : ∀ v, Calm s v → Sat True (Turn s) (k v)) : Sat True (Turn s) (outPush b u k) :=
  Machine.sat_outPush (.goesOn h) (goes _ { h with }) (.raises { h with })

theorem Turn.serGoOn (h : Calm s u) {todo : List SerWork} : Turn s (serGoOn todo u) := by
  cases todo with
  | nil => exact .ends rfl h.err
  | cons w todo => exact .goesOn { h with }

theorem Turn.sat_serMicro (h : Calm s u) (todo : List SerWork) : Sat True (Turn s) (serMicro todo u) := by
  match todo with
  | [] => exact .ends rfl h.err
  | .sym b :: rest =>
    rw [serMicro]
    exact sat_outPush h fun _ hv => serGoOn hv
  | .node i :: rest =>
    rw [serMicro]
    split
    · trivial
    · exact sat_outPush h fun _ hv => serGoOn hv
    · exact sat_outPush h fun _ hv => serGoOn hv

theorem Turn.desReturn (h : Calm s u) {r : NodeIdx} {stack : List DesFrame} :
    Turn s (desReturn r stack u) := by
  induction stack generalizing r u with
  | nil => exact .ends rfl h.err
  | cons f stack ih =>
    cases f with
    | lone => exact .ends rfl h.err
    | left i => exact .goesOn { h with }
    | right i => exact ih (u := u.modifyNode i _) { h with }

theorem Calm.putBits (h : Calm s u) {bits : List Bool} : Calm s (putBits bits u) := by
  rw [putBits_frame]
  exact { h with }

theorem Turn.sat_decBits (h : Calm s u) {n : Nat} : Sat True (Turn s) (decBits n u) :=
  sat_of_forall fun t e => by
    obtain ⟨_, _, _, rfl | ⟨_, rfl⟩ | rfl⟩ := decBits_cases n u t e
    · exact .raises { h with }
    · exact .goesOn { h with }
    · exact .goesOn { h with }

theorem Turn.sat_decNext (h : Calm s u) : Sat True (Turn s) (decNext u) := by
  unfold decNext decSymbol
  split
  · split
    · exact .raises h
    · exact sat_decBits (u := { u with cur := u.root }) { h with }
  · exact .ends rfl h.err

theorem Calm.sat_micro (h : Calm s u) : Sat True (Turn s) (micro u) := by
  simp only [micro]
  cases u.phase with
  | idle => exact .goesOn h
  | profPop =>
    refine Turn.sat_inPop h fun item v hv => ?_
    cases item with
    | none => exact .ends rfl hv.err
    | some b =>
      dsimp only
      split
      · exact .raises hv
      · exact .goesOn { hv with }
  | serPush todo => exact Turn.sat_serMicro h todo
  | desRoot =>
    refine Turn.sat_getByte h fun b v hv => ?_
    split
    · exact .raises hv
    · exact .goesOn { hv with }
  | desTag stack =>
    refine Turn.sat_getByte h fun b v hv => ?_
    split_ifs
    · exact .raises hv
    · exact .raises hv
    · exact .goesOn { hv with }
    · exact .goesOn { hv with }
  | desSym stack =>
    exact Turn.sat_getByte h fun b v hv =>
      Turn.desReturn (u := { v.allocated (.leaf b 0) with nsym := v.nsym + 1 }) { hv with }
  | encPop =>
    refine Turn.sat_inPop h fun item v hv => ?_
    cases item with
    | none =>
      dsimp only
      split
      · exact .ends rfl hv.err
      · exact .goesOn { hv with }
    | some b =>
      dsimp only
      split
      · exact .raises hv
      · exact .goesOn hv.putBits
  | encPush v rest => exact Turn.sat_outPush h fun v hv => .goesOn (Calm.putBits (u := v.emptyAcc) { hv with })
  | encFlush => exact Turn.sat_outPush h fun _ hv => .ends rfl hv.err
  | decPop =>
    refine Turn.sat_inPop h fun item v hv => ?_
    cases item with
    | none => exact .raises hv
    | some b => exact Turn.sat_decBits (u := { v with dbyte := b, dbits := 8 }) { hv with }
  | decPush sym => exact Turn.sat_outPush h fun _ hv => Turn.sat_decNext { hv with }

/-- A command that has ended, with or without an error, takes no further micro-step. -/
theorem Turn.sat_micro (h : Turn s u) : Sat True (Turn s) (micro u) := by
  cases h with
  | goesOn calm => exact calm.sat_micro
  | ends idle err => exact micro_idle idle ▸ Turn.ends idle err
  | raises calm => exact micro_idle (State.raise_phase _ _) ▸ Turn.raises calm

theorem Turn.sat_goOn (h : Turn s u) : Sat True (Turn s) (goOn u) := Machine.sat_goOn (fun _ => sat_micro) h

theorem Turn.desStart (h : Calm s u) {shape : BitVec 2} : Turn s (u.desStart shape) := by
  unfold State.desStart
  dsimp only
  split_ifs
  · exact .ends rfl h.err
  · exact .goesOn { h with }
  · exact .goesOn { h with }

/-! ### Latching an error: the step -/

/-- If an error is latched in the second state, taking it came last, and nothing before it touched the flags, SHAPE or the
responses, or the CUROP of a running command. -/
def RaisesPrecisely (s t : State) : Prop := t.err = true → ∃ u e, Calm s u ∧ t = u.raise e

theorem raisesPrecisely_of_no_error (h : t.err = false) : RaisesPrecisely s t := fun ht =>
  absurd (h.symm.trans ht) Bool.false_ne_true

theorem Turn.raisesPrecisely (he : s.err = false) (h : Turn s t) : RaisesPrecisely s t := by
  cases h with
  | goesOn calm => exact raisesPrecisely_of_no_error (calm.err.trans he)
  | ends idle err => exact raisesPrecisely_of_no_error (err.trans he)
  | raises calm => exact fun _ => ⟨_, _, calm, rfl⟩

theorem Turn.sat_raisesPrecisely (he : s.err = false) {r : Result} (h : Sat True (Turn s) r) :
    Sat True (RaisesPrecisely s) r :=
  sat_of_forall fun _ e => (h.of_eq_next e).raisesPrecisely he

/-- Of the commands only some reads are accepted while one runs (R96). -/
theorem idle_of_pass {i : Instr} (hi : mayOverlap i = false) (hc : checks i s = none) : s.phase = .idle := by
  obtain ⟨_, free | overlaps, _, _⟩ := checks_eq_none.1 hc
  · by_contra running
    exact Bool.false_ne_true (free.symm.trans (busy_iff.2 running))
  · exact absurd (hi.symm.trans overlaps) Bool.false_ne_true

/-- The streaming commands run micro-steps from an accepted state; the others latch no error. -/
theorem Calm.sat_exec (h : Calm s u) (he : s.err = false) (hp : u.phase = s.phase) (i : Instr) :
    Sat True (RaisesPrecisely s) (exec i u) := by
  have still : u.err = false := h.err.trans he
  have noError {t : State} (ht : t.err = false) : RaisesPrecisely s t := raisesPrecisely_of_no_error ht
  have read {i : Instr} (hi : isRead i = true) : Sat True (RaisesPrecisely s) (exec i u) := by
    obtain ⟨resp, v, e⟩ := exec_read hi u
    exact e ▸ noError still
  have atomic {i : Instr} {rule : State → Result} (accepted : Sat True (RaisesPrecisely s) (rule (u.accept i))) :
      Sat True (RaisesPrecisely s) (issued i u rule) :=
    sat_issued (fun _ => noError still) fun _ => accepted
  have streaming {i : Instr} {rule : State → Result} (hi : mayOverlap i = false)
      (accepted : Calm s (u.accept i) → Sat True (Turn s) (rule (u.accept i))) :
      Sat True (RaisesPrecisely s) (issued i u rule) :=
    sat_issued (fun _ => noError still) fun hc =>
      Turn.sat_raisesPrecisely he (accepted (h.accept (hp.symm.trans (idle_of_pass hi hc)) i))
  cases i with
  | clr =>
    rw [exec, execClr]
    exact atomic (noError rfl)
  | prof =>
    rw [exec, execProf]
    exact streaming rfl fun ha => Turn.sat_goOn (.goesOn { ha with })
  | ldf sym count =>
    rw [exec, execLdf]
    exact atomic (noError still)
  | build =>
    rw [exec, execBuild]
    refine atomic (noError ?_)
    rw [built_frame]
    exact still
  | gen =>
    rw [exec, execGen]
    refine atomic ?_
    split
    · exact noError still
    · split
      · exact noError still
      · trivial
  | tser =>
    rw [exec, execTser]
    exact streaming rfl fun ha => Turn.sat_goOn (Turn.serGoOn ha)
  | tdes shape =>
    rw [exec, execTdes]
    exact streaming rfl fun ha => Turn.sat_goOn (Turn.desStart ha)
  | enc =>
    rw [exec, execEnc]
    exact streaming rfl fun ha => Turn.sat_goOn (.goesOn { ha with })
  | dec expected =>
    rw [exec, execDec]
    exact streaming rfl fun ha => sat_andThen (Turn.sat_decNext { ha with }) fun _ => Turn.sat_goOn
  | rdr reg => exact read rfl
  | rdf sym => exact read rfl
  | rdn sel idx => exact read rfl
  | rdc sel sym => exact read rfl

theorem sat_raisesPrecisely_step (he : s.err = false) : Sat True (RaisesPrecisely s) (step s) := by
  have moved (moves : List Move) : Calm s { s with moves := moves } := { Calm.refl s with }
  exact sat_step (fun moves => Turn.sat_raisesPrecisely he (moved moves).sat_micro)
    (fun _ _ rest i _ _ => (moved rest).sat_exec he rfl i) (fun _ => raisesPrecisely_of_no_error he)
    (fun _ _ _ _ => raisesPrecisely_of_no_error he) fun _ _ => raisesPrecisely_of_no_error rfl

/-- Settles O51: up to the raise the command has changed no flag and given no response, and the raise latches a pair of
R266. -/
theorem errorEntryIsPrecise : Obligations.ErrorEntryIsPrecise := by
  intro s t hstep he ht
  obtain ⟨u, e, calm, rfl⟩ := (sat_raisesPrecisely_step he).of_eq_next hstep ht
  have answered : (u.raise e).rsps = s.rsps ++ [⟨1, 0⟩] := by rw [State.raise_rsps, calm.rsps, respErr]
  have listed : (e.code, e.sub) ∈ errorPairs := List.contains_iff_mem.1 (mem_errorPairs e)
  exact ⟨rfl, answered, listed, calm.fv, calm.tv, calm.bv, calm.fin, calm.shape, calm.curop⟩

end Sys2Proof.Machine

/-! SUPPORT. Reset and hazards (70_reset_and_hazards.md): hardware reset (R300), and a PROF whose source has no end (R305). -/

namespace Sys2Proof.Machine

variable {s : State} {src : List Byte}

/-! ### Hardware reset -/

theorem step_reset {rest : List Move} (hm : s.moves = .reset :: rest) :
    step s = .next ({ s with moves := rest } : State).cleared := by
  rw [step_of_move hm, takeMove]

/-- Settles O13: the move asks nothing of the state, and what it leaves is `State.cleared`, with PATH and DEPTH at 0. -/
theorem hardwareResetAbandonsTheCommand : Obligations.HardwareResetAbandonsTheCommand :=
  fun _ _ hm => ⟨0, 0, step_reset hm⟩

/-! ### PROF on a source that does not end -/

/-- With INQ empty the InPop of PROF waits (R74). -/
theorem micro_profiling_waits : micro (s.profiling src []) = .next (s.profiling src []) := by
  rw [micro_profPop rfl, profMicro, inPop_nil rfl]

/-- PROF stops where its source does, whatever is left of the pace. -/
theorem ProfReady.exec_prof_waits (h : ProfReady s src []) : exec .prof s = .next (s.profiling src []) := by
  rw [h.exec_prof, runMicro_disabled rfl]

/-- Settles O22: with every byte of the source counted PROF stands at an InPop of an empty INQ. -/
theorem profWithoutEosStaysBusy : Obligations.ProfWithoutEosStaysBusy := by
  intro s src hp he hf ht hq room hpace
  have ready : ProfReady s src [] := ⟨hp, he, hf, ht, hq.trans (List.append_nil _).symm, room, hpace⟩
  exact ⟨s.profiling src [], ready.exec_prof_waits, rfl, entry_tally s.freq src, micro_profiling_waits⟩

end Sys2Proof.Machine
